-- ==== Sys2Proof/Word.lean ====
section
/-! DEFINITION. The words of the block: a byte is 8 bits (R10), a frame 16 bits (R77). -/

namespace Sys2Proof

/-- A byte, bits numbered 7 down to 0 (R10): a segment pattern or a digit-select pattern. -/
abbrev Byte := BitVec 8

/-- The 16 bits of one frame (R77), and the width of the chain (R33). -/
abbrev Word16 := BitVec 16

end Sys2Proof
end

