-- ==== Sys2Proof/Syntax.lean ====
section
/-! DEFINITION. The operations of the block, one constructor per row of spec/opcode_table.json (R83, R84), and the seven
formats of R70. An operand stands in a constructor where the operation map writes one (R86, R87). -/

namespace Sys2Proof

/-- The seven formats (R70). -/
inductive Format where
  | dcode   -- 4 bits, a digit value (R74)
  | pos     -- 2 bits, a digit position (R75)
  | sel     -- 3 bits, mode and position (R76)
  | segp    -- 8 bits, a segment pattern: a value, no operation (R71)
  | dselp   -- 8 bits, a digit-select pattern: a value, no operation (R73)
  | frame   -- 16 bits, what one EMIT sends (R77)
  | evt     -- no bit pattern: selected by an event or by the sequencing state (R79)
  deriving DecidableEq, Repr

/-- The length of a format in bits (R70); `EVT` has none. -/
def Format.bits : Format → Nat
  | .dcode => 4
  | .pos   => 2
  | .sel   => 3
  | .segp  => 8
  | .dselp => 8
  | .frame => 16
  | .evt   => 0

/-- The operations (R83) and the two reserved rows of the digit code (R84). -/
inductive Instr where
  | seg0 | seg1 | seg2 | seg3 | seg4 | seg5 | seg6 | seg7 | seg8 | seg9
  /-- Digit codes 10 and 11; `d` is the whole 4-bit code. -/
  | dcodeReserved10_11 (d : BitVec 4)
  /-- Digit codes 12 to 15; `d` is the whole 4-bit code. -/
  | dcodeReserved12_15 (d : BitVec 4)
  /-- `FORCE_DP(p)` (R111). -/
  | forceDp (p : Byte)
  | dsel0 | dsel1 | dsel2 | dsel3
  /-- `EMIT(segments, digitSelect)` (R130). -/
  | emit (segments digitSelect : Byte)
  | latchLo
  /-- `DATA_BIT(b)` (R132, R87). -/
  | dataBit (b : Bool)
  | clkLo | clkHi | latchHi
  | gate
  | t0 | t1 | t2 | t3
  | v0 | v1 | v2 | v3
  | idxAdv
  | refresh
  | tick1s | tick2ms
  | sampleReset | sampleMode
  | scale | clamp
  | por
  deriving DecidableEq, Repr

/-- The format of an operation (the `format` column of R83). -/
def Instr.format : Instr → Format
  | .seg0 | .seg1 | .seg2 | .seg3 | .seg4 | .seg5 | .seg6 | .seg7 | .seg8 | .seg9 => .dcode
  | .dcodeReserved10_11 _ | .dcodeReserved12_15 _ => .dcode
  | .dsel0 | .dsel1 | .dsel2 | .dsel3 => .pos
  | .t0 | .t1 | .t2 | .t3 | .v0 | .v1 | .v2 | .v3 => .sel
  | .emit _ _ => .frame
  | .forceDp _ => .evt
  | .latchLo | .dataBit _ | .clkLo | .clkHi | .latchHi => .evt
  | .gate | .idxAdv | .refresh => .evt
  | .tick1s | .tick2ms | .sampleReset | .sampleMode | .scale | .clamp | .por => .evt

end Sys2Proof
end

