-- ==== Sys2Proof/WellFormed.lean ====
section
/-! DEFINITION. Well-formed operations: a reserved row holds a digit code of its own range (R84). Every other operand has
the width of its format and every value of it is legal (R84). -/

namespace Sys2Proof

/-- The operand is one the row's encoding admits. -/
def Instr.wf : Instr → Bool
  | .dcodeReserved10_11 d => decide (d.toNat = 10 ∨ d.toNat = 11)
  | .dcodeReserved12_15 d => decide (12 ≤ d.toNat)
  | .seg0 | .seg1 | .seg2 | .seg3 | .seg4 | .seg5 | .seg6 | .seg7 | .seg8 | .seg9 => true
  | .forceDp _ => true
  | .dsel0 | .dsel1 | .dsel2 | .dsel3 => true
  | .emit _ _ => true
  | .latchLo | .dataBit _ | .clkLo | .clkHi | .latchHi => true
  | .gate => true
  | .t0 | .t1 | .t2 | .t3 | .v0 | .v1 | .v2 | .v3 => true
  | .idxAdv | .refresh => true
  | .tick1s | .tick2ms => true
  | .sampleReset | .sampleMode | .scale | .clamp => true
  | .por => true

end Sys2Proof
end

