-- ==== Sys2Proof/Decode.lean ====
section
/-! DEFINITION. Decoding and encoding (30_encoding.md). An operation with bits is read from its format and its bytes; the
bits alone do not name the format (entry 13). Decoding is total and rejects by name. -/

namespace Sys2Proof

/-- Why bytes are no operation. -/
inductive DecodeError where
  /-- The number of bytes is not the format's. -/
  | wrongLength
  /-- A bit above the format's width is set (R70: each format has one fixed length). -/
  | bitsAboveFormat
  /-- The format carries a pattern, not an operation (R71, R73). -/
  | patternNotOperation
  /-- The format has no bit pattern (R79). -/
  | noBitPattern
  deriving DecidableEq, Repr

/-- Format DCODE (R74, R84): all sixteen codes, ten of them table entries. -/
def decodeDcode (d : BitVec 4) : Instr :=
  match d.toNat with
  | 0 => .seg0
  | 1 => .seg1
  | 2 => .seg2
  | 3 => .seg3
  | 4 => .seg4
  | 5 => .seg5
  | 6 => .seg6
  | 7 => .seg7
  | 8 => .seg8
  | 9 => .seg9
  | 10 => .dcodeReserved10_11 d
  | 11 => .dcodeReserved10_11 d
  | _ => .dcodeReserved12_15 d

/-- Format POS (R75): all four positions. -/
def decodePos (i : BitVec 2) : Instr :=
  match i.toNat with
  | 0 => .dsel0
  | 1 => .dsel1
  | 2 => .dsel2
  | _ => .dsel3

/-- Format SEL (R76): bit 2 is the mode, bits 1 and 0 the position. -/
def decodeSel (s : BitVec 3) : Instr :=
  match s.toNat with
  | 0 => .t0
  | 1 => .t1
  | 2 => .t2
  | 3 => .t3
  | 4 => .v0
  | 5 => .v1
  | 6 => .v2
  | _ => .v3

/-- One byte that must fit `n` bits. -/
def narrowByte (n : Nat) (b : Byte) : Except DecodeError (BitVec n) :=
  if b.toNat < 2 ^ n then .ok (BitVec.ofNat n b.toNat) else .error .bitsAboveFormat

/-- The operation that the bytes of one word stand for in a format. A FRAME word is two bytes, the segment byte first (R52, R77). -/
def decode (f : Format) (bytes : List Byte) : Except DecodeError Instr :=
  match f with
  | .dcode =>
    match bytes with
    | [b] => (narrowByte 4 b).map decodeDcode
    | _ => .error .wrongLength
  | .pos =>
    match bytes with
    | [b] => (narrowByte 2 b).map decodePos
    | _ => .error .wrongLength
  | .sel =>
    match bytes with
    | [b] => (narrowByte 3 b).map decodeSel
    | _ => .error .wrongLength
  | .frame =>
    match bytes with
    | [s, p] => .ok (.emit s p)
    | _ => .error .wrongLength
  | .segp => .error .patternNotOperation
  | .dselp => .error .patternNotOperation
  | .evt => .error .noBitPattern

/-- The bytes of an operation, written from the `selected by` column of R83. An EVT operation has none (R79). -/
def encodeBytes : Instr → List Byte
  | .seg0 => [0b0000#8]
  | .seg1 => [0b0001#8]
  | .seg2 => [0b0010#8]
  | .seg3 => [0b0011#8]
  | .seg4 => [0b0100#8]
  | .seg5 => [0b0101#8]
  | .seg6 => [0b0110#8]
  | .seg7 => [0b0111#8]
  | .seg8 => [0b1000#8]
  | .seg9 => [0b1001#8]
  | .dcodeReserved10_11 d => [d.setWidth 8]
  | .dcodeReserved12_15 d => [d.setWidth 8]
  | .dsel0 => [0b00#8]
  | .dsel1 => [0b01#8]
  | .dsel2 => [0b10#8]
  | .dsel3 => [0b11#8]
  | .t0 => [0b000#8]
  | .t1 => [0b001#8]
  | .t2 => [0b010#8]
  | .t3 => [0b011#8]
  | .v0 => [0b100#8]
  | .v1 => [0b101#8]
  | .v2 => [0b110#8]
  | .v3 => [0b111#8]
  | .emit s p => [s, p]
  | .forceDp _ => []
  | .latchLo => []
  | .dataBit _ => []
  | .clkLo => []
  | .clkHi => []
  | .latchHi => []
  | .gate => []
  | .idxAdv => []
  | .refresh => []
  | .tick1s => []
  | .tick2ms => []
  | .sampleReset => []
  | .sampleMode => []
  | .scale => []
  | .clamp => []
  | .por => []

/-- The format and the bytes of an operation. -/
def encode (i : Instr) : Format × List Byte := (i.format, encodeBytes i)

/-- How a bare word of the opcode table is read (entry 13). The table numbers a word's bits from its least significant bit; it does not say
the format, and `nbits` rounded to bytes is 8 for three formats: 2, 3 and 4 bits name POS, SEL and DCODE, 8 bits is read as DCODE, 16 bits as
FRAME. Anything else is a word of no format, which decoding refuses. -/
def tableCode (nbits w : Nat) : Format × List Byte :=
  if w < 2 ^ nbits then
    match nbits with
    | 2 => (.pos, [BitVec.ofNat 8 w])
    | 3 => (.sel, [BitVec.ofNat 8 w])
    | 4 => (.dcode, [BitVec.ofNat 8 w])
    | 8 => (.dcode, [BitVec.ofNat 8 w])
    | 16 => (.frame, [BitVec.ofNat 8 (w / 256), BitVec.ofNat 8 w])
    | _ => (.evt, [])
  else (.evt, [])

/-- The operation the decoder reads from a bare word of the opcode table. -/
def decodeTableWord (nbits w : Nat) : Option Instr :=
  match decode (tableCode nbits w).1 (tableCode nbits w).2 with
  | .ok i => some i
  | .error _ => none

end Sys2Proof
end

