-- ==== Sys2Proof/Config.lean ====
section
/-! DEFINITION. What is fixed for one machine (R9): the two tables, the mask, the limits, the ratio-to-millivolt
function and the reset levels of the lines; and the free values of the model, constants without a body. -/

namespace Sys2Proof

/-- A potentiometer ratio as a fraction `num / den` (R32; entry 1: the spec has a real number). -/
structure Ratio where
  num : Nat
  den : Nat
  deriving DecidableEq, Repr

/-- The ratio is a number in [0.0, 1.0] (R32). -/
def Ratio.inRange (r : Ratio) : Bool := decide (0 < r.den ∧ r.num ≤ r.den)

/-- The order of two fractions, by cross multiplication. -/
def Ratio.le (a b : Ratio) : Prop := a.num * b.den ≤ b.num * a.den

/-- Levels of the three output lines (R26). -/
structure LineLevels where
  data  : Bool
  clk   : Bool
  latch : Bool
  deriving DecidableEq, Repr

/-- The configuration record of R9, all its seventeen parameters. The operations take it as an argument. The five sizes are also the sizes of the types
that hold the values; `Config.Conforms` fixes them. -/
structure Config where
  /-- `N_DIGITS`, digit positions (R9): the range of `idx` and the length of `DSEL_LUT`. -/
  nDigits     : Nat
  /-- `N_CODES`, digit codes (R9): the length of `SEG_LUT`. -/
  nCodes      : Nat
  /-- `PATTERN_BITS` (R9): the width of a `Byte`. -/
  patternBits : Nat
  /-- `FRAME_BITS` (R9): the width of a `Word16`. -/
  frameBits   : Nat
  /-- `COUNTER_BITS` (R9, D6): the width of the register `counter`. -/
  counterBits : Nat
  /-- `VREF`, the reference voltage in volts (R9, R206). -/
  vref        : Ratio
  /-- `MV_PER_V` (R9, R206). -/
  mvPerV      : Nat
  /-- `T_SECOND` in seconds (R9): informative, the model has no time. -/
  tSecond     : Ratio
  /-- `T_REFRESH` in seconds (R9): informative, the model has no time. -/
  tRefresh    : Ratio
  /-- `SEG_LUT`, ten segment patterns (R30). -/
  segLut   : Vector Byte 10
  /-- `DSEL_LUT`, four digit-select patterns (R30). -/
  dselLut  : Vector Byte 4
  /-- `DP_MASK` (R9, R111). -/
  dpMask   : Byte
  /-- `WRAP`, the modulus of the elapsed-seconds counter (R9, R200). -/
  wrap     : Nat
  /-- `MV_MAX`, the clamp limit (R9, R207). -/
  mvMax    : Nat
  /-- `SCALE_MV`, ratio to millivolts (R9, R206). -/
  scaleMv  : Ratio → Nat
  /-- `PIN_RESET` (R9, D8). -/
  pinReset : LineLevels

/-- What every configuration must meet: the parameters the source fixes and the width of D6 (R9), the table contracts of R100 (a), (b) and R112 (a), and
the required properties of `SCALE_MV` (R206: zero, one, monotone). The tables, `SCALE_MV` and `PIN_RESET` stay open (D3, D4, D8, D14). -/
structure Config.Conforms (c : Config) : Prop where
  nDigitsIs     : c.nDigits = 4
  nCodesIs      : c.nCodes = 10
  patternBitsIs : c.patternBits = 8
  frameBitsIs   : c.frameBits = 16
  counterBitsIs : c.counterBits = 13
  vrefIs        : c.vref = ⟨33, 10⟩
  mvPerVIs      : c.mvPerV = 1000
  pointOff      : ∀ d : Fin 10, (c.segLut[d]).getLsbD 7 = true
  segDistinct   : ∀ d e : Fin 10, c.segLut[d] = c.segLut[e] → d = e
  dselDistinct  : ∀ i j : Fin 4, c.dselLut[i] = c.dselLut[j] → i = j
  maskIs        : c.dpMask = 0x7F#8
  wrapIs        : c.wrap = 6000
  mvMaxIs       : c.mvMax = 9999
  scaleZero     : ∀ den, 0 < den → c.scaleMv ⟨0, den⟩ = 0
  scaleOne      : ∀ den, 0 < den → c.scaleMv ⟨den, den⟩ = 3300
  scaleMonotone : ∀ a b : Ratio, 0 < a.den → 0 < b.den → a.le b → c.scaleMv a ≤ c.scaleMv b

/-- A 16-bit free value: what `SR` and `OUT` hold after `POR` (R40, D9, U9). No body: nothing constrains it (entry 7). -/
opaque Config.freeChain : Nat → Word16

/-- An 8-bit free value: what `snap_seg` and `snap_dsel` hold after `POR` (R28, R40; entry 8). -/
opaque Config.freeByte : Nat → Byte

/-- A 4-bit free value: what `snap_digit` holds after `POR` (R28, R40; entry 8). -/
opaque Config.freeDigit : Nat → BitVec 4

end Sys2Proof
end

