-- ==== Sys2Proof/Machine/Configuration.lean ====
section
/-! DEFINITION. The spec's default configuration (R9), the one this machine is built with: `exec`, `step` and `State.reset` are the operations, the
step and the reset state of a configuration (Configured.lean, State.lean) at this one. -/

namespace Sys2Proof.Machine

/-- `SEG_LUT`, the spec's default (R101 to R110, R118; D3, entry 2). -/
def segLutDefault : Vector Byte 10 :=
  #v[0xC0#8, 0xF9#8, 0xA4#8, 0xB0#8, 0x99#8, 0x92#8, 0x82#8, 0xF8#8, 0x80#8, 0x90#8]

/-- `DSEL_LUT`, the spec's default (R113 to R116, R118; D4, entry 3). -/
def dselLutDefault : Vector Byte 4 := #v[0xF1#8, 0xF2#8, 0xF4#8, 0xF8#8]

/-- `(r * VREF) * MV_PER_V` in exact arithmetic, truncated: the spec's default `SCALE_MV` (R206; D14, entry 4). -/
def scaleExact (vref : Ratio) (mvPerV : Nat) (r : Ratio) : Nat := (r.num * vref.num * mvPerV) / (r.den * vref.den)

/-- The configuration of this machine: the spec's defaults (R9). -/
def config : Config where
  nDigits     := 4
  nCodes      := 10
  patternBits := 8
  frameBits   := 16
  counterBits := 13
  vref        := ⟨33, 10⟩
  mvPerV      := 1000
  tSecond     := ⟨1, 1⟩
  tRefresh    := ⟨2, 1000⟩
  segLut      := segLutDefault
  dselLut     := dselLutDefault
  dpMask      := 0x7F#8
  wrap        := 6000
  mvMax       := 9999
  scaleMv     := scaleExact ⟨33, 10⟩ 1000
  pinReset    := ⟨false, false, false⟩

end Sys2Proof.Machine
end

