-- ==== Sys2Proof/Machine/State.lean ====
section
/-! DEFINITION. The whole state of the system (R20), the model's own sequencing and scheduling fields, the reasons a step can
stop, and the state right after reset (R40). -/

namespace Sys2Proof.Machine

/-- The three output lines (R26). -/
inductive Line where
  | data
  | clk
  | latch
  deriving DecidableEq, Repr

/-- The two tables (R50). -/
inductive Table where
  | seg
  | dsel
  deriving DecidableEq, Repr

/-- Where agent MAIN stands in its iteration (R29). -/
inductive MainPhase where
  | sample
  | gate
  | compute
  | emit
  | advance
  deriving DecidableEq, Repr

/-- What happens next: the events of a trace (R88), one atomic step of MAIN, and a bare operation word (entries 11, 12). -/
inductive Event where
  /-- Power-on (R260). -/
  | por
  /-- One step of agent T1S (R200). -/
  | tick1s
  /-- One step of agent T2MS (R202). -/
  | tick2ms
  /-- ENV sets the reset-button line (R31). -/
  | btnReset (b : Bool)
  /-- ENV sets the mode-button line (R31). -/
  | btnMode (b : Bool)
  /-- ENV sets the potentiometer ratio (R32). -/
  | pot (r : Ratio)
  /-- One atomic step of agent MAIN (R7). -/
  | main
  /-- MAIN runs one whole iteration with no other agent's step inside it (R88, R203). -/
  | loop
  /-- `LOOP*k`: `k` such iterations (R88). -/
  | loopTimes (k : Nat)
  /-- One operation given by its format and bytes (entry 12). -/
  | word (f : Format) (bytes : List Byte)
  deriving DecidableEq, Repr

/-- The state of the system (R20). -/
structure State where
  /-- Elapsed-seconds counter (R21), `COUNTER_BITS` wide (R9, D6). -/
  counter        : BitVec 13
  /-- Refresh-pending flag (R22). -/
  refreshPending : Bool
  /-- Digit index (R23). -/
  idx            : BitVec 2
  /-- Mode flag, true = voltage (R24). -/
  modeVoltage    : Bool
  /-- Previous sample of the reset button, true = unpressed (R25). -/
  prevReset      : Bool
  /-- Line DATA (R26). -/
  data           : Bool
  /-- Line CLK (R26). -/
  clk            : Bool
  /-- Line LATCH (R26). -/
  latch          : Bool
  /-- Pin writes of the current EMIT already done (R27). -/
  serPos         : BitVec 6
  /-- Digit code of the current REFRESH (R28). -/
  snapDigit      : BitVec 4
  /-- Segment pattern after masking (R28). -/
  snapSeg        : Byte
  /-- Digit-select pattern (R28). -/
  snapDsel       : Byte
  /-- Phase of MAIN (R29). -/
  mainPhase      : MainPhase
  /-- The model's own: the step inside the phase (R203; entry 18). -/
  phasePos       : BitVec 2
  /-- Raw millivolt count, the result of SCALE (R169, R206). -/
  mvRaw          : Nat
  /-- Clamped millivolt value, the result of CLAMP (R169, R207). -/
  mv             : Nat
  /-- The model's own: the byte the last encoder operation returned (entry 32). -/
  result         : Byte
  /-- Input line BTN_RESET, true = high = unpressed (R31). -/
  btnReset       : Bool
  /-- Input line BTN_MODE, true = high = unpressed (R31). -/
  btnMode        : Bool
  /-- Analog input POT (R32). -/
  pot            : Ratio
  /-- Shift stages of the chain (R33). -/
  sr             : Word16
  /-- Parallel outputs of the chain (R33). -/
  out            : Word16
  /-- Every pin write, oldest first (R8). -/
  lineTrace      : List (Line × Bool)
  /-- Every frame latched, oldest first (R8). -/
  frameTrace     : List Word16
  /-- The model's own: what happens next (R88; entry 11). -/
  trace          : List Event
  /-- The model's own: how many free values have been drawn (entry 7). -/
  freeDraws      : Nat
  deriving DecidableEq, Repr

/-- Why the machine stops with a fault. -/
inductive Fault where
  /-- A table read outside the table (R51, R84, R100, R230). Raised by a segment lookup with a digit of 10 or more: `DCODE_RESERVED_10_11`,
  `DCODE_RESERVED_12_15`, `T0` of a counter above 5999, `V0` of a millivolt value above 9999. Safe: the source excludes the lookup and gives it no value. -/
  | lutIndexFault (table : Table) (index : Nat)
  deriving DecidableEq, Repr

/-- Why a step has no meaning. -/
inductive Refusal where
  /-- An instruction without a meaning yet. Raised by an arm of `exec`; none is left. Safe. -/
  | notModelled (mnemonic : String)
  /-- An EMIT started while one is in progress (U4). Raised by `EMIT` and `LATCH_LO` when `ser_pos` is not 0. Safe: the source says it does not
  occur and gives it no effect. -/
  | emitOverlap
  /-- The bytes of a `word` event are no operation of their format. Raised by the word's decoding. Safe: there is nothing to run. -/
  | undecodable (e : DecodeError)
  /-- ENV presents a ratio outside [0.0, 1.0] (U11, R283). Raised by the `pot` event. Safe: the spec refuses the input. -/
  | potOutOfRange
  /-- MAIN is in phase EMIT with `ser_pos` above 49 (R27, C9). Raised by MAIN's step. Safe: no operation is selected there. -/
  | serPosOutOfRange
  deriving DecidableEq, Repr

/-- The state right after reset in a configuration (R40, R260), which gives the levels of the three lines (`PIN_RESET`, D8). `SR`, `OUT`, the working
values and the inputs have no value in the spec: zero, and the unpressed level for the buttons (DESIGN CHOICE, unsafe: entries 7 to 10). -/
def State.resetWith (c : Config) : State where
  counter        := 0#13
  refreshPending := false
  idx            := 0#2
  modeVoltage    := false
  prevReset      := true
  data           := c.pinReset.data
  clk            := c.pinReset.clk
  latch          := c.pinReset.latch
  serPos         := 0#6
  snapDigit      := 0#4
  snapSeg        := 0#8
  snapDsel       := 0#8
  mainPhase      := .sample
  phasePos       := 0#2
  mvRaw          := 0
  mv             := 0
  result         := 0#8
  btnReset       := true
  btnMode        := true
  pot            := ⟨0, 1⟩
  sr             := 0#16
  out            := 0#16
  lineTrace      := []
  frameTrace     := []
  trace          := []
  freeDraws      := 0

/-- The state right after reset, in this machine's configuration. -/
def State.reset : State := State.resetWith config

/-- The three outcomes of an operation. -/
abbrev Outcome := Host.Outcome State Fault Refusal

end Sys2Proof.Machine
end

