-- ==== Sys2Proof/Machine/Flags.lean ====
section
/-! DEFINITION. The two flags of the block (R37): `refresh_pending` and `mode_voltage`. No operation sets a flag as a side effect of
arithmetic. -/

namespace Sys2Proof.Machine

/-- The refresh timer sets the flag (R202); setting a set flag changes nothing (R22). -/
def setRefreshPending (s : State) : State := { s with refreshPending := true }

/-- The main loop consumes the flag (R161). -/
def clearRefreshPending (s : State) : State := { s with refreshPending := false }

/-- The mode flag is the sampled level of the mode button, low = voltage (R205). -/
def setModeFromLevel (level : Bool) (s : State) : State := { s with modeVoltage := !level }

end Sys2Proof.Machine
end

