-- ==== Sys2Proof/Machine/Operands.lean ====
section
/-! DEFINITION. The computation of every operand: the digit of each of the eight multiplexer operations (R80, R81), the clamp (R207),
the decimal-point mask (R111), the frame (R77) and its bits (R132), the multiplexer's selector (R76). -/

namespace Sys2Proof.Machine

/-- `minutes = n / 60` (R80, R163). -/
def minutesOf (n : Nat) : Nat := n / 60

/-- `seconds = n % 60` (R80, R163). -/
def secondsOf (n : Nat) : Nat := n % 60

/-- Tens of minutes (R80, R165). -/
def digitT0 (n : Nat) : Nat := minutesOf n / 10

/-- Ones of minutes (R80, R166). -/
def digitT1 (n : Nat) : Nat := minutesOf n % 10

/-- Tens of seconds (R80, R167). -/
def digitT2 (n : Nat) : Nat := secondsOf n / 10

/-- Ones of seconds (R80, R168). -/
def digitT3 (n : Nat) : Nat := secondsOf n % 10

/-- The millivolt remainder (R81). -/
def remainderOf (mv : Nat) : Nat := mv % 1000

/-- Integer volts (R81, R170). -/
def digitV0 (mv : Nat) : Nat := mv / 1000

/-- Hundreds of the remainder (R81, R171). -/
def digitV1 (mv : Nat) : Nat := remainderOf mv / 100

/-- Tens of the remainder (R81, R172). -/
def digitV2 (mv : Nat) : Nat := (remainderOf mv / 10) % 10

/-- Ones of the remainder (R81, R173). -/
def digitV3 (mv : Nat) : Nat := remainderOf mv % 10

/-- `CLAMP(mv_raw) = min(mv_raw, 9999)` (R207). -/
def clampMv (c : Config) (mvRaw : Nat) : Nat := min mvRaw c.mvMax

/-- `FORCE_DP(p) = p & 0x7F` (R111). -/
def forcePoint (c : Config) (p : Byte) : Byte := p &&& c.dpMask

/-- The frame of an EMIT: segment pattern high, digit-select pattern low (R77). -/
def frameOf (segments digitSelect : Byte) : Word16 := segments ++ digitSelect

/-- The `k`-th bit sent, `frame[15 - k]` (R132). -/
def frameBit (frame : Word16) (k : Nat) : Bool := frame.getLsbD (15 - k)

/-- The multiplexer's selector `mode_voltage ++ idx` (R76, R162). -/
def selectorOf (s : State) : BitVec 3 := BitVec.ofBool s.modeVoltage ++ s.idx

end Sys2Proof.Machine
end

