-- ==== Sys2Proof/Machine/Ops.lean ====
section
/-! DEFINITION. The shared operations: table reads (R51), pin reads and the analog read (R12), pin writes with the reaction of the chain
(R12, R140 to R142), the pin writes of one EMIT (R130), the digit computation all eight multiplexer operations share (R82),
entering a phase of the main loop (R29), and callback entry and return (R234, R235). -/

namespace Sys2Proof.Machine

/-- Run `f` on the next state of an outcome; a stop stays a stop. -/
def andThen (o : Outcome) (f : State → Outcome) : Outcome :=
  match o with
  | .next s => f s
  | .fault r => .fault r
  | .refused r => .refused r

/-- `MemRead(table, index, 1)` (R51): the entry, or the model's fault outside the table. -/
def tableRead (c : Config) (t : Table) (index : Nat) : Except Fault Byte :=
  match t with
  | .seg =>
    match c.segLut[index]? with
    | some b => .ok b
    | none => .error (.lutIndexFault .seg index)
  | .dsel =>
    match c.dselLut[index]? with
    | some b => .ok b
    | none => .error (.lutIndexFault .dsel index)

/-- `ENC_SEG(d)` (R100). -/
def encSeg (c : Config) (d : Nat) : Except Fault Byte := tableRead c .seg d

/-- `ENC_DSEL(i)` (R112): two bits are always inside the table. -/
def encDsel (c : Config) (i : BitVec 2) : Byte := c.dselLut[i.toNat]'(by have := i.isLt; omega)

/-- `PinRead(BTN_RESET)` (R12, R31): no side effect (R57). -/
def readResetButton (s : State) : Bool := s.btnReset

/-- `PinRead(BTN_MODE)` (R12, R31): no side effect (R57). -/
def readModeButton (s : State) : Bool := s.btnMode

/-- `AnalogRead()` (R12, R32): no side effect the source states (R57). -/
def analogRead (s : State) : Ratio := s.pot

/-- `SR <- SR[14:0] ++ DATA` (R140). -/
def chainShift (sr : Word16) (data : Bool) : Word16 := sr.extractLsb' 0 15 ++ BitVec.ofBool data

/-- The line changes level and the line trace gets an entry (R12). -/
def driveLine (line : Line) (b : Bool) (s : State) : State :=
  match line with
  | .data => { s with data := b, lineTrace := s.lineTrace ++ [(.data, b)] }
  | .clk => { s with clk := b, lineTrace := s.lineTrace ++ [(.clk, b)] }
  | .latch => { s with latch := b, lineTrace := s.lineTrace ++ [(.latch, b)] }

/-- The chain shifts (R140). -/
def chainClock (s : State) : State := { s with sr := chainShift s.sr s.data }

/-- The chain copies its stages to its outputs and the frame trace gets an entry (R141). -/
def chainLatch (s : State) : State := { s with out := s.sr, frameTrace := s.frameTrace ++ [s.sr] }

/-- `PinWrite(line, b)` (R12) with the reaction of CHAIN: a rising edge of CLK shifts, a rising edge of LATCH latches, any other write
does nothing more (R140 to R142). -/
def pinWrite (line : Line) (b : Bool) (s : State) : State :=
  match line with
  | .data => driveLine .data b s
  | .clk => if b && !s.clk then chainClock (driveLine .clk b s) else driveLine .clk b s
  | .latch => if b && !s.latch then chainLatch (driveLine .latch b s) else driveLine .latch b s

/-- The three writes of one bit: `DATA_BIT(b)`, `CLK_LO`, `CLK_HI` (R130, R87). -/
def bitWrites (b : Bool) : List (Line × Bool) := [(.data, b), (.clk, false), (.clk, true)]

/-- `SHIFT_BYTE(v)`: bits 7 down to 0 (R87, R52). -/
def shiftByteWrites (v : Byte) : List (Line × Bool) :=
  bitWrites (v.getLsbD 7) ++ bitWrites (v.getLsbD 6) ++ bitWrites (v.getLsbD 5) ++ bitWrites (v.getLsbD 4) ++
  bitWrites (v.getLsbD 3) ++ bitWrites (v.getLsbD 2) ++ bitWrites (v.getLsbD 1) ++ bitWrites (v.getLsbD 0)

/-- The pin writes of `EMIT(segments, digitSelect)` in order (R130, R87). -/
def emitWrites (segments digitSelect : Byte) : List (Line × Bool) :=
  [(.latch, false)] ++ shiftByteWrites segments ++ shiftByteWrites digitSelect ++ [(.latch, true)]

/-- A list of pin writes, one after the other. -/
def pinWrites (ws : List (Line × Bool)) (s : State) : State := ws.foldl (fun s w => pinWrite w.1 w.2 s) s

/-- The working values of one REFRESH, and the two patterns looked up for digit `d` at position `pos`; the segment pattern is masked
for `T1` and `V0` only (R82, R165 to R173). -/
def showDigit (c : Config) (d : Nat) (pos : BitVec 2) (point : Bool) (s : State) : Outcome :=
  match encSeg c d with
  | .ok p =>
    .next { s with
      snapDigit := BitVec.ofNat 4 d
      snapSeg := if point then forcePoint c p else p
      snapDsel := encDsel c pos }
  | .error f => .fault f

/-- MAIN enters a phase at its first step (R29). -/
def enterPhase (p : MainPhase) (s : State) : State := { s with mainPhase := p, phasePos := 0#2 }

/-- The serializer's position moves (R27). -/
def setSerPos (p : BitVec 6) (s : State) : State := { s with serPos := p }

/-- Callback entry, body and return (R234, R235), the block's stand-in for taking an exception and returning from it: the main loop stands
between two of its steps, nothing is saved, no mode or mask changes, the body runs as one atomic step, nothing is restored. -/
def timerCallback (body : State → State) (s : State) : Outcome := .next (body s)

/-- `TICK1S`'s increment and compare (R200). -/
def tickCounter (c : Config) (n : BitVec 13) : BitVec 13 :=
  if n.toNat + 1 ≥ c.wrap then 0#13 else BitVec.ofNat 13 (n.toNat + 1)

end Sys2Proof.Machine
end

