-- ==== Sys2Proof/Machine/ContextBlocks.lean ====
section
/-! DEFINITION. The context blocks (43_context_blocks.md): the two timer callbacks, the two button samples, and the Analog Reader's scaling
and clamp. -/

namespace Sys2Proof.Machine

/-- `TICK1S` (R200): the 1-second callback, one atomic step. -/
def execTick1s (s : State) (c : Config := config) : Outcome := timerCallback (fun s => { s with counter := tickCounter c s.counter }) s

/-- `TICK2MS` (R202): the 2-millisecond callback, one atomic step. -/
def execTick2ms (s : State) : Outcome := timerCallback setRefreshPending s

/-- `SAMPLE_RESET` (R204): the counter is zeroed on a sampled 1-to-0 edge and on nothing else. -/
def execSampleReset (s : State) : Outcome :=
  let cur := readResetButton s
  .next { s with
    counter := if s.prevReset && !cur then 0#13 else s.counter
    prevReset := cur }

/-- `SAMPLE_MODE` (R205): the mode is the level of this sample. -/
def execSampleMode (s : State) : Outcome := .next (enterPhase .gate (setModeFromLevel (readModeButton s) s))

/-- `SCALE(r)` (R206) of the ratio read from the potentiometer (R169). -/
def execScale (s : State) (c : Config := config) : Outcome := .next { s with mvRaw := c.scaleMv (analogRead s) }

/-- `CLAMP(mv_raw)` (R207). -/
def execClamp (s : State) (c : Config := config) : Outcome := .next { s with mv := clampMv c s.mvRaw }

end Sys2Proof.Machine
end

