-- ==== Sys2Proof/Machine/Serializer.lean ====
section
/-! DEFINITION. The Shift-Register Driver (41_serializer.md): EMIT and its five pin-write micro-operations. -/

namespace Sys2Proof.Machine

/-- `EMIT(segments, digitSelect)` as one step (R130, D22): fifty pin writes, `ser_pos` back at 0. It does not start while another is in
progress (U4). -/
def execEmit (segments digitSelect : Byte) (s : State) : Outcome :=
  if s.serPos = 0#6 then
    .next (setSerPos 0#6 (pinWrites (emitWrites segments digitSelect) s))
  else .refused .emitOverlap

/-- `LATCH_LO` (R131): it starts an EMIT, so not while one is in progress (U4). -/
def execLatchLo (s : State) : Outcome :=
  if s.serPos = 0#6 then .next (setSerPos 1#6 (pinWrite .latch false s)) else .refused .emitOverlap

/-- `DATA_BIT(b)` (R132). -/
def execDataBit (b : Bool) (s : State) : Outcome := .next (setSerPos (s.serPos + 1#6) (pinWrite .data b s))

/-- `CLK_LO` (R133). -/
def execClkLo (s : State) : Outcome := .next (setSerPos (s.serPos + 1#6) (pinWrite .clk false s))

/-- `CLK_HI` (R134). -/
def execClkHi (s : State) : Outcome := .next (setSerPos (s.serPos + 1#6) (pinWrite .clk true s))

/-- `LATCH_HI` (R136). -/
def execLatchHi (s : State) : Outcome := .next (setSerPos 0#6 (pinWrite .latch true s))

/-- The pin write selected by the number of writes already done (R135, R83): write 0, the three writes of each of the sixteen bits, write 49.
None is selected above 49. -/
def serializerOp (frame : Word16) (p : Nat) : Option Instr :=
  if p = 0 then some .latchLo
  else if p = 49 then some .latchHi
  else if p < 49 then
    if p % 3 = 1 then some (.dataBit (frameBit frame ((p - 1) / 3)))
    else if p % 3 = 2 then some .clkLo
    else some .clkHi
  else none

end Sys2Proof.Machine
end

