-- ==== Sys2Proof/Machine/DisplayMux.lean ====
section
/-! DEFINITION. The Display Multiplexer (42_display_mux.md): the gate, the eight digit computations, the rotation, and the whole REFRESH. A time
operation takes its snapshot of `counter` itself, in its own step (R164); a voltage operation takes the clamped value `mv` (R169). -/

namespace Sys2Proof.Machine

/-- `GATE` (R161): one atomic test-and-clear of the flag (R62). -/
def execGate (s : State) : Outcome :=
  if s.refreshPending then .next (enterPhase .compute (clearRefreshPending s)) else .next (enterPhase .sample s)

/-- `T0`, tens of minutes (R165). -/
def execT0 (s : State) (c : Config := config) : Outcome := showDigit c (digitT0 s.counter.toNat) 0#2 false s

/-- `T1`, ones of minutes with the colon (R166). -/
def execT1 (s : State) (c : Config := config) : Outcome := showDigit c (digitT1 s.counter.toNat) 1#2 true s

/-- `T2`, tens of seconds (R167). -/
def execT2 (s : State) (c : Config := config) : Outcome := showDigit c (digitT2 s.counter.toNat) 2#2 false s

/-- `T3`, ones of seconds (R168). -/
def execT3 (s : State) (c : Config := config) : Outcome := showDigit c (digitT3 s.counter.toNat) 3#2 false s

/-- `V0`, integer volts with the decimal point (R170). -/
def execV0 (s : State) (c : Config := config) : Outcome := showDigit c (digitV0 s.mv) 0#2 true s

/-- `V1`, hundreds of the millivolt remainder (R171). -/
def execV1 (s : State) (c : Config := config) : Outcome := showDigit c (digitV1 s.mv) 1#2 false s

/-- `V2`, tens of the millivolt remainder (R172). -/
def execV2 (s : State) (c : Config := config) : Outcome := showDigit c (digitV2 s.mv) 2#2 false s

/-- `V3`, ones of the millivolt remainder (R173). -/
def execV3 (s : State) (c : Config := config) : Outcome := showDigit c (digitV3 s.mv) 3#2 false s

/-- `IDX_ADV` (R175): the natural wrap of two bits is the `% 4`. -/
def execIdxAdv (s : State) : Outcome := .next (enterPhase .sample { s with idx := s.idx + 1#2 })

/-- Phase COMPUTE of R176 in time mode: the operation the position selects. -/
def computeTime (s : State) (c : Config := config) : Outcome :=
  match s.idx.toNat with
  | 0 => execT0 s c
  | 1 => execT1 s c
  | 2 => execT2 s c
  | _ => execT3 s c

/-- The voltage operation the position selects. -/
def voltageDigit (s : State) (c : Config := config) : Outcome :=
  match s.idx.toNat with
  | 0 => execV0 s c
  | 1 => execV1 s c
  | 2 => execV2 s c
  | _ => execV3 s c

/-- Phase COMPUTE of R176 in voltage mode: one sample of the potentiometer, scaled, clamped, then the operation the position selects (R169). -/
def computeVoltage (s : State) (c : Config := config) : Outcome :=
  andThen (execScale s c) fun s => andThen (execClamp s c) fun s => voltageDigit s c

/-- Phase COMPUTE of R176. -/
def compute (s : State) (c : Config := config) : Outcome := if s.modeVoltage then computeVoltage s c else computeTime s c

/-- `REFRESH` as one step (R176): COMPUTE, EMIT, ADVANCE. -/
def execRefresh (s : State) (c : Config := config) : Outcome :=
  andThen (compute s c) fun s => andThen (execEmit s.snapSeg s.snapDsel s) execIdxAdv

end Sys2Proof.Machine
end

