-- ==== Sys2Proof/Machine/Reset.lean ====
section
/-! DEFINITION. `POR`, the only reset (70_reset_and_hazards.md). -/

namespace Sys2Proof.Machine

/-- `POR` (R260): every value of R40; `SR`, `OUT` and the working values are free values (D9, R28, R40; entries 7 and 8). The inputs are what ENV
holds, and the rest of the trace still lies ahead (entry 26). -/
def execPor (s : State) (c : Config := config) : Outcome :=
  .next
    { counter        := 0#13
      refreshPending := false
      idx            := 0#2
      modeVoltage    := false
      prevReset      := true
      data           := c.pinReset.data
      clk            := c.pinReset.clk
      latch          := c.pinReset.latch
      serPos         := 0#6
      snapDigit      := Config.freeDigit (s.freeDraws + 2)
      snapSeg        := Config.freeByte (s.freeDraws + 3)
      snapDsel       := Config.freeByte (s.freeDraws + 4)
      mainPhase      := .sample
      phasePos       := 0#2
      mvRaw          := 0
      mv             := 0
      result         := 0#8
      btnReset       := s.btnReset
      btnMode        := s.btnMode
      pot            := s.pot
      sr             := Config.freeChain s.freeDraws
      out            := Config.freeChain (s.freeDraws + 1)
      lineTrace      := []
      frameTrace     := []
      trace          := s.trace
      freeDraws      := s.freeDraws + 5 }

end Sys2Proof.Machine
end

