-- ==== Sys2Proof/Machine/SegmentEncoder.lean ====
section
/-! DEFINITION. The Segment Encoder (40_segment_encoder.md): the ten segment entries, the reserved codes, the decimal-point mask and
the four digit-select entries. An encoder operation writes no register of the spec; the byte it returns stands in the model's
own field `result` (entry 32). -/

namespace Sys2Proof.Machine

/-- A segment lookup as an operation of its own (R100). -/
def returnSeg (c : Config) (d : Nat) (s : State) : Outcome :=
  match encSeg c d with
  | .ok p => .next { s with result := p }
  | .error f => .fault f

/-- A digit-select lookup as an operation of its own (R112). -/
def returnDsel (c : Config) (i : BitVec 2) (s : State) : Outcome := .next { s with result := encDsel c i }

/-- `SEG0` (R101). -/
def execSeg0 (s : State) (c : Config := config) : Outcome := returnSeg c 0 s

/-- `SEG1` (R102). -/
def execSeg1 (s : State) (c : Config := config) : Outcome := returnSeg c 1 s

/-- `SEG2` (R103). -/
def execSeg2 (s : State) (c : Config := config) : Outcome := returnSeg c 2 s

/-- `SEG3` (R104). -/
def execSeg3 (s : State) (c : Config := config) : Outcome := returnSeg c 3 s

/-- `SEG4` (R105). -/
def execSeg4 (s : State) (c : Config := config) : Outcome := returnSeg c 4 s

/-- `SEG5` (R106). -/
def execSeg5 (s : State) (c : Config := config) : Outcome := returnSeg c 5 s

/-- `SEG6` (R107). -/
def execSeg6 (s : State) (c : Config := config) : Outcome := returnSeg c 6 s

/-- `SEG7` (R108). -/
def execSeg7 (s : State) (c : Config := config) : Outcome := returnSeg c 7 s

/-- `SEG8` (R109). -/
def execSeg8 (s : State) (c : Config := config) : Outcome := returnSeg c 8 s

/-- `SEG9` (R110). -/
def execSeg9 (s : State) (c : Config := config) : Outcome := returnSeg c 9 s

/-- Digit codes 10 and 11: no table entry, `raise LutIndexFault(SEG, d)` (R84, R51). -/
def execDcodeReserved10_11 (d : BitVec 4) (_s : State) : Outcome := .fault (.lutIndexFault .seg d.toNat)

/-- Digit codes 12 to 15: no table entry, `raise LutIndexFault(SEG, d)` (R84, R51). -/
def execDcodeReserved12_15 (d : BitVec 4) (_s : State) : Outcome := .fault (.lutIndexFault .seg d.toNat)

/-- `FORCE_DP(p)` (R111). -/
def execForceDp (p : Byte) (s : State) (c : Config := config) : Outcome := .next { s with result := forcePoint c p }

/-- `DSEL0` (R113). -/
def execDsel0 (s : State) (c : Config := config) : Outcome := returnDsel c 0#2 s

/-- `DSEL1` (R114). -/
def execDsel1 (s : State) (c : Config := config) : Outcome := returnDsel c 1#2 s

/-- `DSEL2` (R115). -/
def execDsel2 (s : State) (c : Config := config) : Outcome := returnDsel c 2#2 s

/-- `DSEL3` (R116). -/
def execDsel3 (s : State) (c : Config := config) : Outcome := returnDsel c 3#2 s

end Sys2Proof.Machine
end

