-- ==== Sys2Proof/Machine/Dispatch.lean ====
section
/-! DEFINITION. One arm per operation, one call of its meaning each. -/

namespace Sys2Proof.Machine

-- The effect of an operation on a state; what selects the operation stands in Sequencer.lean and in Decode.lean.
def exec (i : Instr) (s : State) : Host.Outcome State Fault Refusal :=
  match i with
  -- Segment Encoder (40_segment_encoder.md)
  | .seg0 => Sys2Proof.Machine.execSeg0 s
  | .seg1 => Sys2Proof.Machine.execSeg1 s
  | .seg2 => Sys2Proof.Machine.execSeg2 s
  | .seg3 => Sys2Proof.Machine.execSeg3 s
  | .seg4 => Sys2Proof.Machine.execSeg4 s
  | .seg5 => Sys2Proof.Machine.execSeg5 s
  | .seg6 => Sys2Proof.Machine.execSeg6 s
  | .seg7 => Sys2Proof.Machine.execSeg7 s
  | .seg8 => Sys2Proof.Machine.execSeg8 s
  | .seg9 => Sys2Proof.Machine.execSeg9 s
  | .dcodeReserved10_11 d => Sys2Proof.Machine.execDcodeReserved10_11 d s
  | .dcodeReserved12_15 d => Sys2Proof.Machine.execDcodeReserved12_15 d s
  | .forceDp p => Sys2Proof.Machine.execForceDp p s
  | .dsel0 => Sys2Proof.Machine.execDsel0 s
  | .dsel1 => Sys2Proof.Machine.execDsel1 s
  | .dsel2 => Sys2Proof.Machine.execDsel2 s
  | .dsel3 => Sys2Proof.Machine.execDsel3 s
  -- Shift-Register Driver (41_serializer.md)
  | .emit segments digitSelect => Sys2Proof.Machine.execEmit segments digitSelect s
  | .latchLo => Sys2Proof.Machine.execLatchLo s
  | .dataBit b => Sys2Proof.Machine.execDataBit b s
  | .clkLo => Sys2Proof.Machine.execClkLo s
  | .clkHi => Sys2Proof.Machine.execClkHi s
  | .latchHi => Sys2Proof.Machine.execLatchHi s
  -- Display Multiplexer (42_display_mux.md)
  | .gate => Sys2Proof.Machine.execGate s
  | .t0 => Sys2Proof.Machine.execT0 s
  | .t1 => Sys2Proof.Machine.execT1 s
  | .t2 => Sys2Proof.Machine.execT2 s
  | .t3 => Sys2Proof.Machine.execT3 s
  | .v0 => Sys2Proof.Machine.execV0 s
  | .v1 => Sys2Proof.Machine.execV1 s
  | .v2 => Sys2Proof.Machine.execV2 s
  | .v3 => Sys2Proof.Machine.execV3 s
  | .idxAdv => Sys2Proof.Machine.execIdxAdv s
  | .refresh => Sys2Proof.Machine.execRefresh s
  -- context blocks (43_context_blocks.md)
  | .tick1s => Sys2Proof.Machine.execTick1s s
  | .tick2ms => Sys2Proof.Machine.execTick2ms s
  | .sampleReset => Sys2Proof.Machine.execSampleReset s
  | .sampleMode => Sys2Proof.Machine.execSampleMode s
  | .scale => Sys2Proof.Machine.execScale s
  | .clamp => Sys2Proof.Machine.execClamp s
  -- reset (70_reset_and_hazards.md)
  | .por => Sys2Proof.Machine.execPor s

end Sys2Proof.Machine
end

