-- ==== Sys2Proof/Machine/Sequencer.lean ====
section
/-! DEFINITION. What stands in the place of fetching and of the program counter (R36): which operation agent MAIN runs next, how its position
moves past it (R29), one step of MAIN, a whole iteration (R203), and what each event of a trace does (R88). -/

namespace Sys2Proof.Machine

/-- The operation that MAIN's position selects (R79, R83). In SAMPLE the reset button comes first (R203). In COMPUTE the three-bit selector picks the
digit operation (R76); in voltage mode `SCALE` and `CLAMP` come before it (R169). In EMIT `ser_pos` picks the pin write (R135). -/
def select (s : State) : Option Instr :=
  match s.mainPhase with
  | .sample => if s.phasePos = 0#2 then some .sampleReset else some .sampleMode
  | .gate => some .gate
  | .compute =>
    if s.modeVoltage && s.phasePos = 0#2 then some .scale
    else if s.modeVoltage && s.phasePos = 1#2 then some .clamp
    else some (decodeSel (selectorOf s))
  | .emit => serializerOp (frameOf s.snapSeg s.snapDsel) s.serPos.toNat
  | .advance => some .idxAdv

/-- How MAIN's position moves past an operation, beside what the operation's own pseudocode does to `main_phase` (R29). -/
def afterMain (i : Instr) (s : State) : State :=
  match i with
  | .sampleReset => { s with phasePos := 1#2 }
  | .scale => { s with phasePos := 1#2 }
  | .clamp => { s with phasePos := 2#2 }
  | .t0 => enterPhase .emit s
  | .t1 => enterPhase .emit s
  | .t2 => enterPhase .emit s
  | .t3 => enterPhase .emit s
  | .v0 => enterPhase .emit s
  | .v1 => enterPhase .emit s
  | .v2 => enterPhase .emit s
  | .v3 => enterPhase .emit s
  | .latchHi => enterPhase .advance s
  | .sampleMode | .gate | .latchLo | .dataBit _ | .clkLo | .clkHi | .idxAdv => s
  | .seg0 | .seg1 | .seg2 | .seg3 | .seg4 | .seg5 | .seg6 | .seg7 | .seg8 | .seg9 => s
  | .dcodeReserved10_11 _ | .dcodeReserved12_15 _ | .forceDp _ => s
  | .dsel0 | .dsel1 | .dsel2 | .dsel3 => s
  | .emit _ _ | .refresh | .tick1s | .tick2ms | .por => s

/-- What an operation does: `exec`, or the operations of another configuration. -/
abbrev Meaning := Instr → State → Outcome

/-- One atomic step of agent MAIN (R7). -/
def mainStep (s : State) (run : Meaning := exec) : Outcome :=
  match select s with
  | none => .refused .serPosOutOfRange
  | some i => andThen (run i s) fun t => .next (afterMain i t)

/-- MAIN stands before the first step of an iteration. -/
def atIterationStart (s : State) : Bool := s.mainPhase == .sample && s.phasePos == 0#2

/-- One iteration from its start, as R203 writes it: `SAMPLE_RESET`, `SAMPLE_MODE`, `GATE`, and `REFRESH` if `GATE` found the flag true. -/
def loopIteration (s : State) (run : Meaning := exec) : Outcome :=
  andThen (run .sampleReset s) fun s => andThen (run .sampleMode s) fun s => andThen (run .gate s) fun s =>
    if s.mainPhase = .compute then run .refresh s else .next s

/-- MAIN's steps up to the end of the iteration it stands in, at most `fuel` of them. -/
def finishIteration (fuel : Nat) (s : State) (run : Meaning := exec) : Outcome :=
  match fuel with
  | 0 => .next s
  | n + 1 => andThen (mainStep s run) fun t => if atIterationStart t then .next t else finishIteration n t run

/-- The most steps one iteration takes: two samples, the gate, three steps of a voltage COMPUTE, fifty pin writes, the advance. -/
def iterationFuel : Nat := 57

/-- The event `LOOP` (R88, R203). Where MAIN already stands inside an iteration, the rest of that one (entry 23). -/
def runLoop (s : State) (run : Meaning := exec) : Outcome :=
  if atIterationStart s then loopIteration s run else finishIteration iterationFuel s run

/-- What one event does. `s` is the state with the event taken off its trace. -/
def runEvent (e : Event) (s : State) (run : Meaning := exec) : Outcome :=
  match e with
  | .por => run .por s
  | .tick1s => run .tick1s s
  | .tick2ms => run .tick2ms s
  | .btnReset b => .next { s with btnReset := b }
  | .btnMode b => .next { s with btnMode := b }
  | .pot r => if r.inRange then .next { s with pot := r } else .refused .potOutOfRange
  | .main => mainStep s run
  | .loop => runLoop s run
  | .loopTimes 0 => .next s
  | .loopTimes (k + 1) => runLoop { s with trace := .loopTimes k :: s.trace } run
  | .word f bytes =>
    match decode f bytes with
    | .ok i => run i s
    | .error e => .refused (.undecodable e)

/-- One atomic step of the system (R59): the next event of the trace, or, where the trace is empty, the next step of agent MAIN, which always has
one (R281). -/
def systemStep (s : State) (run : Meaning := exec) : Outcome :=
  match s.trace with
  | [] => mainStep s run
  | e :: rest => runEvent e { s with trace := rest } run

end Sys2Proof.Machine
end

