-- ==== Sys2Proof/Machine/Step.lean ====
section
/-! DEFINITION. One atomic step of the system (R59): the next event of the trace, or, where the trace is empty, the next step of agent MAIN,
which always has one (R281). -/

namespace Sys2Proof.Machine

/-- One step (R6, R59), in this machine's configuration. -/
def step (s : State) : Host.Outcome State Fault Refusal := systemStep s

/-- The state whose very next step runs the operation of a bare table word (entry 12): the word stands first in the trace. -/
def State.withFetchWord (s : State) (nbits w : Nat) : State :=
  { s with trace := .word (tableCode nbits w).1 (tableCode nbits w).2 :: s.trace }

end Sys2Proof.Machine
end

