-- ==== Sys2Proof/Machine/Configured.lean ====
section
/-! DEFINITION. The machine of any configuration (R9): the same meanings and the same sequencing, with the configuration as an argument. The tables,
`SCALE_MV` and `PIN_RESET` are open in the source (D3, D4, D8, D14); a claim over every configuration that meets `Config.Conforms` is stated here. -/

namespace Sys2Proof.Machine

/-- The effect of an operation in configuration `c`; at `config` it is `exec`. -/
def execWith (c : Config) (i : Instr) (s : State) : Outcome :=
  match i with
  | .seg0 => execSeg0 s c
  | .seg1 => execSeg1 s c
  | .seg2 => execSeg2 s c
  | .seg3 => execSeg3 s c
  | .seg4 => execSeg4 s c
  | .seg5 => execSeg5 s c
  | .seg6 => execSeg6 s c
  | .seg7 => execSeg7 s c
  | .seg8 => execSeg8 s c
  | .seg9 => execSeg9 s c
  | .dcodeReserved10_11 d => execDcodeReserved10_11 d s
  | .dcodeReserved12_15 d => execDcodeReserved12_15 d s
  | .forceDp p => execForceDp p s c
  | .dsel0 => execDsel0 s c
  | .dsel1 => execDsel1 s c
  | .dsel2 => execDsel2 s c
  | .dsel3 => execDsel3 s c
  | .emit segments digitSelect => execEmit segments digitSelect s
  | .latchLo => execLatchLo s
  | .dataBit b => execDataBit b s
  | .clkLo => execClkLo s
  | .clkHi => execClkHi s
  | .latchHi => execLatchHi s
  | .gate => execGate s
  | .t0 => execT0 s c
  | .t1 => execT1 s c
  | .t2 => execT2 s c
  | .t3 => execT3 s c
  | .v0 => execV0 s c
  | .v1 => execV1 s c
  | .v2 => execV2 s c
  | .v3 => execV3 s c
  | .idxAdv => execIdxAdv s
  | .refresh => execRefresh s c
  | .tick1s => execTick1s s c
  | .tick2ms => execTick2ms s
  | .sampleReset => execSampleReset s
  | .sampleMode => execSampleMode s
  | .scale => execScale s c
  | .clamp => execClamp s c
  | .por => execPor s c

/-- One step of the system in configuration `c`; at `config` it is `step`. -/
def stepWith (c : Config) (s : State) : Outcome := systemStep s (execWith c)

end Sys2Proof.Machine
end

