-- ==== Sys2Proof/Safety.lean ====
section
/-! DEFINITION. What counts as a safe state and a well-formed output, in the terms the statements use: the legal ranges (R20), the display
invariant (R135, R138, R165 to R178), the receiver of the line trace (R78), the measure that bounds frames by refresh ticks (R160), and endless runs and fairness (R281). -/

namespace Sys2Proof.Machine

/-- The legal values of R20, and the clamp's bound on `mv` (R207). -/
structure InRange (s : State) : Prop where
  counter : s.counter.toNat ≤ 5999
  mv      : s.mv ≤ 9999
  serPos  : s.serPos.toNat ≤ 49
  pot     : s.pot.inRange = true

/-- An event the hardware's surroundings can cause: no bare word (entry 12), and no ratio outside [0, 1] (R283). -/
def Event.ofHardware : Event → Bool
  | .word _ _ => false
  | .pot r => r.inRange
  | .por | .tick1s | .tick2ms | .btnReset _ | .btnMode _ | .main | .loop | .loopTimes _ => true

/-- Every event of the trace is one the hardware's surroundings can cause. -/
def HardwareTrace (s : State) : Prop := ∀ e ∈ s.trace, e.ofHardware = true

/-- The decimal point or colon is forced on: `T1` and `V0` only (R76, R82). -/
def pointForced (mode : Bool) (pos : BitVec 2) : Bool :=
  if mode then pos == 0#2 else pos == 1#2

/-- The segment pattern of digit `d`, masked or not (R82). -/
def segPattern (c : Config) (d : Fin 10) (point : Bool) : Byte :=
  if point then forcePoint c c.segLut[d] else c.segLut[d]

/-- The frame shows some digit 0 to 9 at position `pos`, with the position's own digit-select pattern; the masked form occurs only at positions
0 and 1 (95_test_vectors.md section 4, property 1; R165 to R174). -/
def FrameShows (c : Config) (pos : BitVec 2) (f : Word16) : Prop :=
  ∃ (d : Fin 10) (point : Bool),
    f = frameOf (segPattern c d point) (encDsel c pos) ∧ (point = true → pos = 0#2 ∨ pos = 1#2)

/-- The pin writes that send one latched frame (R78). -/
def frameWrites (f : Word16) : List (Line × Bool) := emitWrites (f.extractLsb' 8 8) (f.extractLsb' 0 8)

/-- Clock pulses of the current EMIT already done (R135). -/
def pulsesDone (serPos : Nat) : Nat := (serPos - 1) / 3

/-- Where MAIN may stand: the step inside a phase, and `ser_pos` 0 outside phase EMIT (R27, R29). -/
def PhaseOk (s : State) : Prop :=
  match s.mainPhase with
  | .sample => s.phasePos.toNat ≤ 1 ∧ s.serPos = 0#6
  | .gate => s.phasePos = 0#2 ∧ s.serPos = 0#6
  | .compute => s.phasePos.toNat ≤ 2 ∧ (s.modeVoltage = false → s.phasePos = 0#2) ∧ s.serPos = 0#6
  | .emit => s.phasePos = 0#2
  | .advance => s.phasePos = 0#2 ∧ s.serPos = 0#6

/-- Inside an EMIT: LATCH is low, the bit being sent stands on DATA, CLK is low before its rising edge, and the bits already sent stand at the low end of
the chain in order (R131 to R137). -/
structure ShiftOk (s : State) : Prop where
  latchLow : 0 < s.serPos.toNat → s.latch = false
  dataIs   : 1 < s.serPos.toNat → s.serPos.toNat % 3 ≠ 1 →
    s.data = frameBit (frameOf s.snapSeg s.snapDsel) (pulsesDone s.serPos.toNat)
  clkLow   : 0 < s.serPos.toNat → s.serPos.toNat % 3 = 0 → s.clk = false
  bitsSent : ∀ j, j < pulsesDone s.serPos.toNat →
    s.sr.getLsbD j = (frameOf s.snapSeg s.snapDsel).getLsbD (16 - pulsesDone s.serPos.toNat + j)

/-- Refreshes served since reset, as the rotation counts them: the frame of an iteration that has not yet advanced is not counted (R175, R178). -/
def served (s : State) : Nat :=
  if s.mainPhase = .advance then s.frameTrace.length - 1 else s.frameTrace.length

/-- The display invariant, in this machine's configuration or another. It holds at reset and every step keeps it on hardware traces. -/
structure DisplayInv (s : State) (c : Config := config) : Prop where
  ranges    : InRange s
  hardware  : HardwareTrace s
  phase     : PhaseOk s
  shift     : ShiftOk s
  /-- What is being sent shows a digit at the current position, masked exactly where the mode and the position say (R82, R174). -/
  snap      : s.mainPhase = .emit →
    ∃ d : Fin 10, s.snapSeg = segPattern c d (pointForced s.modeVoltage s.idx) ∧ s.snapDsel = encDsel c s.idx
  /-- A frame has been latched before MAIN advances (R175). -/
  latched   : s.mainPhase = .advance → s.frameTrace ≠ []
  /-- The `k`-th frame after reset serves position `k` modulo 4, counted from 0, and shows a digit there (R178). -/
  frames    : ∀ k f, s.frameTrace[k]? = some f → FrameShows c (BitVec.ofNat 2 k) f
  /-- The digit index counts the refreshes served (R178). -/
  rotation  : s.idx = BitVec.ofNat 2 (served s)
  /-- The line trace is one block of fifty writes for each latched frame, then the part of the current block already written (R135, R143). -/
  lines     : s.lineTrace =
    s.frameTrace.flatMap frameWrites ++ (emitWrites s.snapSeg s.snapDsel).take s.serPos.toNat

/-- A receiver of the line trace (R78): the levels it has seen, whether it is between a LATCH write of 0 and the next LATCH write of 1, the bits
collected there, and the frames recovered. -/
structure Receiver where
  data   : Bool
  clk    : Bool
  open_  : Bool
  bits   : List Bool
  frames : List (List Bool)
  deriving DecidableEq, Repr

/-- The receiver sees one pin write (R78). -/
def Receiver.see (r : Receiver) (w : Line × Bool) : Receiver :=
  match w.1 with
  | .data => { r with data := w.2 }
  | .clk =>
    if w.2 && !r.clk && r.open_ then { r with clk := w.2, bits := r.bits ++ [r.data] } else { r with clk := w.2 }
  | .latch =>
    if w.2 then
      if r.open_ then { r with open_ := false, bits := [], frames := r.frames ++ [r.bits] } else r
    else { r with open_ := true, bits := [] }

/-- The receiver sees a list of pin writes. -/
def Receiver.seeAll (r : Receiver) (ws : List (Line × Bool)) : Receiver := ws.foldl Receiver.see r

/-- The sixteen bits of a frame, most significant first (R52). -/
def frameBits (f : Word16) : List Bool := (List.range 16).map (frameBit f)

/-- Frames latched, plus the refresh that is pending, plus the one under way (R22, R160). -/
def refreshesOwed (s : State) : Nat :=
  s.frameTrace.length + (if s.refreshPending then 1 else 0) +
    (if s.mainPhase = .compute ∨ s.mainPhase = .emit then 1 else 0)

/-- The digit shown in a mode at a position, from the counter value `n` or the clamped millivolt value `mv`, by the formulas of R80 and R81. -/
def digitShown (mode : Bool) (pos : BitVec 2) (n mv : Nat) : Nat :=
  match mode, pos.toNat with
  | false, 0 => n / 60 / 10
  | false, 1 => n / 60 % 10
  | false, 2 => n % 60 / 10
  | false, _ => n % 60 % 10
  | true, 0 => mv / 1000
  | true, 1 => mv % 1000 / 100
  | true, 2 => mv % 1000 / 10 % 10
  | true, _ => mv % 1000 % 10

/-- An event that is one atomic step of one agent other than power-on (R7): no whole iteration, no bare word. -/
def Event.oneAgentStep : Event → Bool
  | .main | .tick1s | .tick2ms | .btnReset _ | .btnMode _ | .pot _ => true
  | .por | .loop | .loopTimes _ | .word _ _ => false

/-- The next step is one atomic step of one agent: the trace is empty (MAIN moves) or begins with such an event. -/
def NextIsOneAgentStep (s : State) : Prop := ∀ e rest, s.trace = e :: rest → e.oneAgentStep = true

/-- `k` steps of the machine, stopping at the first that does not complete. -/
def runSteps (k : Nat) (s : State) : Outcome :=
  match k with
  | 0 => .next s
  | n + 1 => andThen (step s) (runSteps n)

/-- Operations one after the other, with nothing between them. -/
def execAll (is : List Instr) (s : State) : Outcome :=
  match is with
  | [] => .next s
  | i :: rest => andThen (exec i s) (execAll rest)

/-- An endless run (R281, R282): at each moment the agent that moves next is put into the trace, and the step completes. No trace in a state is endless;
the endless sequence of events stands beside the states. -/
structure Execution (states : Nat → State) (events : Nat → Event) : Prop where
  oneStep : ∀ n, (events n).oneAgentStep = true
  steps   : ∀ n, step { states n with trace := [events n] } = .next (states (n + 1))

/-- Fairness (R281): agent MAIN takes infinitely many steps, and each timer delivers infinitely many events. Nothing bounds how many steps of one agent fall
between two of another. -/
structure Fair (events : Nat → Event) : Prop where
  main    : ∀ n, ∃ m, n ≤ m ∧ events m = .main
  tick1s  : ∀ n, ∃ m, n ≤ m ∧ events m = .tick1s
  tick2ms : ∀ n, ∃ m, n ≤ m ∧ events m = .tick2ms

end Sys2Proof.Machine
end

