-- ==== Sys2Proof/Certificates/Slice0/Obligations.lean ====
section
/-! DEFINITION. The statements about the model, from the numbered rules of spec/. Each names the rule or the sections it rests on. -/

open Sys2Proof Sys2Proof.Machine

/-! ### Encodings -/

/-- Words written out from the formats of R74 to R77 and R84 decode to the operations R83 lists. -/
def Obligations.WordsOfTheFormatsDecode : Prop :=
  decode .dcode [0b00000010#8] = .ok .seg2 ∧
  decode .dcode [0b00001001#8] = .ok .seg9 ∧
  decode .dcode [0b00001011#8] = .ok (.dcodeReserved10_11 0b1011#4) ∧
  decode .dcode [0b00001110#8] = .ok (.dcodeReserved12_15 0b1110#4) ∧
  decode .pos [0b00000001#8] = .ok .dsel1 ∧
  decode .sel [0b00000011#8] = .ok .t3 ∧
  decode .sel [0b00000100#8] = .ok .v0 ∧
  decode .frame [0b00100100#8, 0b11110010#8] = .ok (.emit 0x24#8 0xF2#8)

/-- Decode of encode: every well-formed operation that has a bit pattern is read back whole, with every operand (R70, R83). -/
def Obligations.DecodeOfEncode : Prop :=
  ∀ i : Instr, i.wf = true → i.format ≠ .evt → decode (encode i).1 (encode i).2 = .ok i

/-- Encode of decode: bytes that decode are the encoding of the operation they decode to, which is well formed and has that format. That no other bytes decode
(bits above the width, another length, a pattern format) is the model's choice, entry 14. -/
def Obligations.EncodeOfDecode : Prop :=
  ∀ (f : Format) (bytes : List Byte) (i : Instr),
    decode f bytes = .ok i → encode i = (f, bytes) ∧ i.wf = true ∧ i.format = f

/-- No bytes of a pattern format or of EVT are an operation. R71, R73 and R79 say that such a format holds a pattern or has no bit pattern; that the decoder
refuses its bytes by name is the model's choice, entry 14. -/
def Obligations.PatternsAndEventsDoNotDecode : Prop :=
  ∀ bytes : List Byte,
    decode .segp bytes = .error .patternNotOperation ∧
    decode .dselp bytes = .error .patternNotOperation ∧
    decode .evt bytes = .error .noBitPattern

/-! ### One step -/

/-- A step whose next event is a bare word runs the operation the word decodes to, and nothing around it but taking the word off the trace. -/
def Obligations.StepRunsTheDecodedWord : Prop :=
  ∀ (s : State) (f : Format) (bytes : List Byte) (rest : List Event) (i : Instr),
    s.trace = .word f bytes :: rest → decode f bytes = .ok i →
      step s = exec i { s with trace := rest }

/-- The step after `withFetchWord` is the operation the decoder reads from the table's word, at the very state. -/
def Obligations.StepRunsTheTableWord : Prop :=
  ∀ (s : State) (nbits w : Nat) (i : Instr),
    decodeTableWord nbits w = some i → step (s.withFetchWord nbits w) = exec i s

/-- A step of agent MAIN (the trace is empty, or its next event is MAIN's) runs the operation MAIN's position selects and moves the position past it. -/
def Obligations.StepRunsWhatMainSelects : Prop :=
  ∀ (s : State) (i : Instr),
    (s.trace = [] → select s = some i →
      step s = andThen (exec i s) fun t => .next (afterMain i t)) ∧
    (∀ rest, s.trace = .main :: rest → select s = some i →
      step s = andThen (exec i { s with trace := rest }) fun t => .next (afterMain i t))

/-- Timer events and power-on run `TICK1S`, `TICK2MS` and `POR` as one atomic step each (R234, R262). -/
def Obligations.StepRunsTimerAndPowerEvents : Prop :=
  ∀ (s : State) (rest : List Event),
    (s.trace = .tick1s :: rest → step s = exec .tick1s { s with trace := rest }) ∧
    (s.trace = .tick2ms :: rest → step s = exec .tick2ms { s with trace := rest }) ∧
    (s.trace = .por :: rest → step s = exec .por { s with trace := rest })

/-- An event of ENV changes its own input and nothing else; a ratio outside [0, 1] is refused (R31, R32, R283, U11). -/
def Obligations.EnvironmentSetsOnlyItsInputs : Prop :=
  ∀ (s : State) (rest : List Event),
    (∀ b, s.trace = .btnReset b :: rest → step s = .next { s with trace := rest, btnReset := b }) ∧
    (∀ b, s.trace = .btnMode b :: rest → step s = .next { s with trace := rest, btnMode := b }) ∧
    (∀ r : Ratio, s.trace = .pot r :: rest → 0 < r.den → r.num ≤ r.den →
      step s = .next { s with trace := rest, pot := r }) ∧
    (∀ r : Ratio, s.trace = .pot r :: rest → r.den = 0 ∨ r.den < r.num → step s = .refused .potOutOfRange)

/-! ### Segment Encoder -/

/-- The ten segment operations return the ten bytes of R118 and change nothing else (R101 to R110; the bytes are decision D3). -/
def Obligations.SegmentOperationsReturnTheTable : Prop :=
  ∀ s : State,
    exec .seg0 s = .next { s with result := 0xC0#8 } ∧
    exec .seg1 s = .next { s with result := 0xF9#8 } ∧
    exec .seg2 s = .next { s with result := 0xA4#8 } ∧
    exec .seg3 s = .next { s with result := 0xB0#8 } ∧
    exec .seg4 s = .next { s with result := 0x99#8 } ∧
    exec .seg5 s = .next { s with result := 0x92#8 } ∧
    exec .seg6 s = .next { s with result := 0x82#8 } ∧
    exec .seg7 s = .next { s with result := 0xF8#8 } ∧
    exec .seg8 s = .next { s with result := 0x80#8 } ∧
    exec .seg9 s = .next { s with result := 0x90#8 }

/-- The reserved digit codes stop with the model's fault, in every state (R84, R51; decision D5). -/
def Obligations.ReservedDigitCodesFault : Prop :=
  ∀ (s : State) (d : BitVec 4),
    exec (.dcodeReserved10_11 d) s = .fault (.lutIndexFault .seg d.toNat) ∧
    exec (.dcodeReserved12_15 d) s = .fault (.lutIndexFault .seg d.toNat)

/-- `FORCE_DP` returns the byte with bit 7 cleared and every other bit as it was, and changes nothing else; it is idempotent (R111). -/
def Obligations.ForceDpClearsOnlyBitSeven : Prop :=
  ∀ (s : State) (p : Byte), ∃ q : Byte,
    exec (.forceDp p) s = .next { s with result := q } ∧
    q.getLsbD 7 = false ∧ (∀ j, j < 7 → q.getLsbD j = p.getLsbD j) ∧
    (p.getLsbD 7 = false → q = p) ∧
    exec (.forceDp q) s = .next { s with result := q }

/-- The four digit-select operations return the four bytes of R118 and change nothing else (R113 to R116; the bytes are decision D4). -/
def Obligations.DigitSelectOperationsReturnTheTable : Prop :=
  ∀ s : State,
    exec .dsel0 s = .next { s with result := 0xF1#8 } ∧
    exec .dsel1 s = .next { s with result := 0xF2#8 } ∧
    exec .dsel2 s = .next { s with result := 0xF4#8 } ∧
    exec .dsel3 s = .next { s with result := 0xF8#8 }

/-- The machine's configuration meets every contract the spec puts on a configuration (R100 (a), (b), R112 (a), R206). -/
def Obligations.ConfigurationMeetsItsContracts : Prop := config.Conforms

/-! ### Shift-Register Driver -/

/-- A pin write drives its line and adds a line-trace entry; a rising CLK edge shifts the chain, a rising LATCH edge latches it, any other write leaves the
chain alone (R12, R140 to R142; the chain model is decision D16). -/
def Obligations.PinWriteMovesTheChain : Prop :=
  ∀ (s : State) (b : Bool),
    pinWrite .data b s = { s with data := b, lineTrace := s.lineTrace ++ [(.data, b)] } ∧
    (s.clk = false → pinWrite .clk true s =
      { s with clk := true, lineTrace := s.lineTrace ++ [(.clk, true)], sr := (s.sr <<< 1) ||| (BitVec.ofBool s.data).setWidth 16 }) ∧
    (b = false ∨ s.clk = true → pinWrite .clk b s =
      { s with clk := b, lineTrace := s.lineTrace ++ [(.clk, b)] }) ∧
    (s.latch = false → pinWrite .latch true s =
      { s with latch := true, lineTrace := s.lineTrace ++ [(.latch, true)], out := s.sr, frameTrace := s.frameTrace ++ [s.sr] }) ∧
    (b = false ∨ s.latch = true → pinWrite .latch b s =
      { s with latch := b, lineTrace := s.lineTrace ++ [(.latch, b)] })

/-- The five micro-operations make their one pin write and move `ser_pos` (R131 to R134, R136); `LATCH_LO` starts an EMIT, so it completes with `ser_pos` 0
and is refused otherwise (U4). -/
def Obligations.MicroOperationsMakeOnePinWrite : Prop :=
  ∀ s : State,
    (s.serPos = 0#6 → exec .latchLo s = .next { pinWrite .latch false s with serPos := 1#6 }) ∧
    (s.serPos ≠ 0#6 → exec .latchLo s = .refused .emitOverlap) ∧
    (∀ b, exec (.dataBit b) s = .next { pinWrite .data b s with serPos := s.serPos + 1#6 }) ∧
    exec .clkLo s = .next { pinWrite .clk false s with serPos := s.serPos + 1#6 } ∧
    exec .clkHi s = .next { pinWrite .clk true s with serPos := s.serPos + 1#6 } ∧
    exec .latchHi s = .next { pinWrite .latch true s with serPos := 0#6 }

/-- In phase EMIT the number of pin writes already done selects the next one by the table of R135 (the numbering is decision D22); above 49 none is selected. -/
def Obligations.SerialPositionSelectsThePinWrite : Prop :=
  ∀ s : State, s.mainPhase = .emit →
    (s.serPos.toNat = 0 → select s = some .latchLo) ∧
    (∀ k, k < 16 →
      (s.serPos.toNat = 1 + 3 * k → select s =
        some (.dataBit (if k < 8 then s.snapSeg.getLsbD (7 - k) else s.snapDsel.getLsbD (15 - k)))) ∧
      (s.serPos.toNat = 2 + 3 * k → select s = some .clkLo) ∧
      (s.serPos.toNat = 3 + 3 * k → select s = some .clkHi)) ∧
    (s.serPos.toNat = 49 → select s = some .latchHi) ∧
    (49 < s.serPos.toNat → select s = none)

/-- One EMIT, from any line levels and any chain contents, leaves both bytes in the chain and at its outputs, the lines at rest, and exactly its fifty writes and
one frame in the traces; nothing else changes (R130, R138, R139, R146; what the chain holds rests on the chain model of decision D16, entry 22). -/
def Obligations.EmitDeliversTheFrame : Prop :=
  ∀ (s : State) (segments digitSelect : Byte), s.serPos = 0#6 →
    exec (.emit segments digitSelect) s = .next { s with
      latch := true
      clk := true
      data := digitSelect.getLsbD 0
      sr := segments ++ digitSelect
      out := segments ++ digitSelect
      lineTrace := s.lineTrace ++ emitWrites segments digitSelect
      frameTrace := s.frameTrace ++ [segments ++ digitSelect] }

/-- An EMIT is not started while another is in progress (U4). -/
def Obligations.EmitDoesNotOverlap : Prop :=
  ∀ (s : State) (segments digitSelect : Byte), s.serPos ≠ 0#6 →
    exec (.emit segments digitSelect) s = .refused .emitOverlap

/-- Fifty steps of MAIN in phase EMIT are one EMIT, after which MAIN stands in phase ADVANCE (R135, R130, R29, D22). -/
def Obligations.FiftyMainStepsAreOneEmit : Prop :=
  ∀ s : State, s.mainPhase = .emit → s.serPos = 0#6 → s.trace = [] →
    runSteps 50 s = andThen (exec (.emit s.snapSeg s.snapDsel) s) fun t => .next (enterPhase .advance t)

/-- A receiver that follows R78 recovers the sixteen bits of the frame from the fifty writes, most significant bit first, whatever levels it saw before. -/
def Obligations.ReceiverRecoversOneFrame : Prop :=
  ∀ (r : Receiver) (segments digitSelect : Byte),
    (r.seeAll (emitWrites segments digitSelect)).frames = r.frames ++ [frameBits (frameOf segments digitSelect)]

/-- While single agents step, the outputs of the chain and the frame trace change only in MAIN's `LATCH_HI`, the fiftieth write of an EMIT, and then to the
sixteen shifted bits at once (R138, R141, R145, R274; that a rising edge of LATCH alone moves them is the chain model of decision D16, entry 22). -/
def Obligations.OutputsChangeOnlyAtTheLatch : Prop :=
  ∀ s t : State, NextIsOneAgentStep s → step s = .next t →
    t.out ≠ s.out ∨ t.frameTrace ≠ s.frameTrace →
      s.mainPhase = .emit ∧ s.serPos = 49#6 ∧ t.out = s.sr ∧ t.frameTrace = s.frameTrace ++ [s.sr]

/-! ### Display Multiplexer -/

/-- `GATE`: selected in phase GATE; with the flag set it clears it and goes to COMPUTE, otherwise it only goes back to SAMPLE (R161). -/
def Obligations.GateTestsAndClearsTheFlag : Prop :=
  ∀ s : State,
    (s.mainPhase = .gate → select s = some .gate) ∧
    (s.refreshPending = true →
      exec .gate s = .next { s with refreshPending := false, mainPhase := .compute, phasePos := 0#2 }) ∧
    (s.refreshPending = false → exec .gate s = .next { s with mainPhase := .sample, phasePos := 0#2 })

/-- `T0` to `T3`: the digit of each position from one value of the counter, its pattern (masked at position 1 only), the position's digit-select pattern, and
nothing else changed (R165 to R168). -/
def Obligations.TimeOperationsShowTheirDigit : Prop :=
  (decode .sel [0b000#8] = .ok .t0 ∧ decode .sel [0b001#8] = .ok .t1 ∧
    decode .sel [0b010#8] = .ok .t2 ∧ decode .sel [0b011#8] = .ok .t3) ∧
  ∀ s : State, s.counter.toNat ≤ 5999 → ∃ d0 d1 d2 d3 : Fin 10,
    d0.val = (s.counter.toNat / 60) / 10 ∧ d1.val = (s.counter.toNat / 60) % 10 ∧
    d2.val = (s.counter.toNat % 60) / 10 ∧ d3.val = (s.counter.toNat % 60) % 10 ∧
    exec .t0 s = .next { s with
      snapDigit := BitVec.ofNat 4 d0.val, snapSeg := config.segLut[d0], snapDsel := config.dselLut[0] } ∧
    exec .t1 s = .next { s with
      snapDigit := BitVec.ofNat 4 d1.val, snapSeg := config.segLut[d1] &&& 0x7F#8, snapDsel := config.dselLut[1] } ∧
    exec .t2 s = .next { s with
      snapDigit := BitVec.ofNat 4 d2.val, snapSeg := config.segLut[d2], snapDsel := config.dselLut[2] } ∧
    exec .t3 s = .next { s with
      snapDigit := BitVec.ofNat 4 d3.val, snapSeg := config.segLut[d3], snapDsel := config.dselLut[3] }

/-- `V0` to `V3`: the digit of each position from the clamped millivolt value, its pattern (masked at position 0 only), the position's digit-select pattern,
and nothing else changed (R170 to R173). -/
def Obligations.VoltageOperationsShowTheirDigit : Prop :=
  (decode .sel [0b100#8] = .ok .v0 ∧ decode .sel [0b101#8] = .ok .v1 ∧
    decode .sel [0b110#8] = .ok .v2 ∧ decode .sel [0b111#8] = .ok .v3) ∧
  ∀ s : State, s.mv ≤ 9999 → ∃ d0 d1 d2 d3 : Fin 10,
    d0.val = s.mv / 1000 ∧ d1.val = (s.mv % 1000) / 100 ∧
    d2.val = ((s.mv % 1000) / 10) % 10 ∧ d3.val = (s.mv % 1000) % 10 ∧
    exec .v0 s = .next { s with
      snapDigit := BitVec.ofNat 4 d0.val, snapSeg := config.segLut[d0] &&& 0x7F#8, snapDsel := config.dselLut[0] } ∧
    exec .v1 s = .next { s with
      snapDigit := BitVec.ofNat 4 d1.val, snapSeg := config.segLut[d1], snapDsel := config.dselLut[1] } ∧
    exec .v2 s = .next { s with
      snapDigit := BitVec.ofNat 4 d2.val, snapSeg := config.segLut[d2], snapDsel := config.dselLut[2] } ∧
    exec .v3 s = .next { s with
      snapDigit := BitVec.ofNat 4 d3.val, snapSeg := config.segLut[d3], snapDsel := config.dselLut[3] }

/-- Outside the ranges of R20 only the leading digit leaves the table and faults; the other six operations complete in every state (U1, U2, R276). -/
def Obligations.OnlyTheLeadingDigitCanFault : Prop :=
  ∀ s : State,
    (5999 < s.counter.toNat → exec .t0 s = .fault (.lutIndexFault .seg (s.counter.toNat / 600))) ∧
    (9999 < s.mv → exec .v0 s = .fault (.lutIndexFault .seg (s.mv / 1000))) ∧
    (∀ i ∈ [Instr.t1, .t2, .t3, .v1, .v2, .v3], ∃ t, exec i s = .next t)

/-- After a digit operation the decimal point or colon is lit for `T1` and `V0` and dark for the other six, whatever the digit (R82, R111, R100 (a)). -/
def Obligations.PointLitForColonAndVoltsOnly : Prop :=
  ∀ (s t : State) (i : Instr), i ∈ [Instr.t0, .t1, .t2, .t3, .v0, .v1, .v2, .v3] →
    exec i s = .next t → (t.snapSeg.getLsbD 7 = false ↔ i = .t1 ∨ i = .v0)

/-- `IDX_ADV`: selected exactly in phase ADVANCE, which MAIN enters from the last write of an EMIT, always, and from nowhere else (R29; MAIN's step makes the
move, entry 31); it adds one modulo 4 and goes back to SAMPLE; no other operation but the whole REFRESH, which contains it, and power-on changes the index
(R175). -/
def Obligations.IdxAdvRotatesTheIndex : Prop :=
  (∀ s : State,
    (select s = some .idxAdv ↔ s.mainPhase = .advance) ∧
    (select s = some .latchHi → ∃ t, mainStep s = .next t ∧ t.mainPhase = .advance ∧ t.idx = s.idx) ∧
    (∀ t, s.mainPhase ≠ .advance → mainStep s = .next t → t.mainPhase = .advance → select s = some .latchHi) ∧
    ∃ t, exec .idxAdv s = .next t ∧ t.idx.toNat = (s.idx.toNat + 1) % 4 ∧
      t = { s with idx := t.idx, mainPhase := .sample, phasePos := 0#2 }) ∧
  (∀ (s t : State) (i : Instr), exec i s = .next t → t.idx ≠ s.idx →
    i = .idxAdv ∨ i = .refresh ∨ i = .por)

/-- `REFRESH`: one digit of the mode's source at the current position is computed, sent as one frame, and the index advances; everything it changes is listed
(R176, R169, R174; what the chain holds rests on the chain model of decision D16, entry 22). -/
def Obligations.RefreshServesOnePosition : Prop :=
  ∀ s : State, s.counter.toNat ≤ 5999 → s.serPos = 0#6 →
    ∃ (d : Fin 10) (raw clamped : Nat),
      raw = (if s.modeVoltage then config.scaleMv s.pot else s.mvRaw) ∧
      clamped = (if s.modeVoltage then min raw 9999 else s.mv) ∧
      d.val = digitShown s.modeVoltage s.idx s.counter.toNat clamped ∧
      exec .refresh s = .next { s with
        mvRaw := raw
        mv := clamped
        snapDigit := BitVec.ofNat 4 d.val
        snapSeg := segPattern config d (pointForced s.modeVoltage s.idx)
        snapDsel := encDsel config s.idx
        latch := true
        clk := true
        data := (encDsel config s.idx).getLsbD 0
        sr := frameOf (segPattern config d (pointForced s.modeVoltage s.idx)) (encDsel config s.idx)
        out := frameOf (segPattern config d (pointForced s.modeVoltage s.idx)) (encDsel config s.idx)
        lineTrace := s.lineTrace ++
          emitWrites (segPattern config d (pointForced s.modeVoltage s.idx)) (encDsel config s.idx)
        frameTrace := s.frameTrace ++
          [frameOf (segPattern config d (pointForced s.modeVoltage s.idx)) (encDsel config s.idx)]
        idx := s.idx + 1#2
        mainPhase := .sample
        phasePos := 0#2 }

/-- A REFRESH in time mode does not look at the potentiometer or the millivolt values, one in voltage mode does not look at the counter or the earlier
millivolt values, and neither looks at a button line (R32, R162, R164, R169, R205). -/
def Obligations.RefreshReadsOnlyItsSource : Prop :=
  ∀ (s : State) (r : Ratio) (raw clamped : Nat) (n : BitVec 13) (b1 b2 : Bool),
    (s.modeVoltage = false →
      exec .refresh { s with pot := r, mvRaw := raw, mv := clamped, btnReset := b1, btnMode := b2 } =
        andThen (exec .refresh s) fun t => .next { t with pot := r, mvRaw := raw, mv := clamped, btnReset := b1, btnMode := b2 }) ∧
    (s.modeVoltage = true →
      exec .refresh { s with counter := n, mvRaw := raw, mv := clamped, btnReset := b1, btnMode := b2 } =
        andThen (exec .refresh s) fun t => .next { t with counter := n, btnReset := b1, btnMode := b2 })

/-- Any raw value of 9999 or more displays 9.999: after `CLAMP` the four voltage operations prepare the frames 10F1, 90F2, 90F4, 90F8 (R180). -/
def Obligations.OverrangeDisplaysNines : Prop :=
  ∀ s : State, 9999 ≤ s.mvRaw → ∃ u t0 t1 t2 t3, exec .clamp s = .next u ∧
    exec .v0 u = .next t0 ∧ frameOf t0.snapSeg t0.snapDsel = 0x10F1#16 ∧
    exec .v1 u = .next t1 ∧ frameOf t1.snapSeg t1.snapDsel = 0x90F2#16 ∧
    exec .v2 u = .next t2 ∧ frameOf t2.snapSeg t2.snapDsel = 0x90F4#16 ∧
    exec .v3 u = .next t3 ∧ frameOf t3.snapSeg t3.snapDsel = 0x90F8#16

/-! ### Context blocks -/

/-- `TICK1S`: the counter goes to (n + 1) mod 6000 on its range and to 0 from the unreachable values above (decision D23); nothing else changes (R200). -/
def Obligations.SecondTickCountsModulo6000 : Prop :=
  ∀ s : State, ∃ c : BitVec 13,
    exec .tick1s s = .next { s with counter := c } ∧
    (s.counter.toNat ≤ 5999 → c.toNat = (s.counter.toNat + 1) % 6000) ∧
    (5999 < s.counter.toNat → c.toNat = 0)

/-- `TICK2MS`: selected by the event of the 2-millisecond timer; it sets the flag, loses itself on a set flag, and changes nothing else; the next GATE starts a
REFRESH (R202). -/
def Obligations.RefreshTickSetsTheFlag : Prop :=
  ∀ s : State,
    (∀ rest, s.trace = .tick2ms :: rest → step s = exec .tick2ms { s with trace := rest }) ∧
    exec .tick2ms s = .next { s with refreshPending := true } ∧
    (s.refreshPending = true → exec .tick2ms s = .next s) ∧
    (∀ t, exec .tick2ms s = .next t → ∃ u, exec .gate t = .next u ∧ u.mainPhase = .compute ∧ u.refreshPending = false)

/-- `SAMPLE_RESET`: selected first in phase SAMPLE; the four cases of the previous and the current sample; the counter and the previous sample are all it writes
(R204). -/
def Obligations.ResetButtonActsOnTheFallingEdge : Prop :=
  ∀ s : State,
    (s.mainPhase = .sample → s.phasePos = 0#2 → select s = some .sampleReset) ∧
    (s.prevReset = true → s.btnReset = true → exec .sampleReset s = .next { s with prevReset := true }) ∧
    (s.prevReset = true → s.btnReset = false →
      exec .sampleReset s = .next { s with prevReset := false, counter := 0#13 }) ∧
    (s.prevReset = false → s.btnReset = false → exec .sampleReset s = .next { s with prevReset := false }) ∧
    (s.prevReset = false → s.btnReset = true → exec .sampleReset s = .next { s with prevReset := true })

/-- `SAMPLE_MODE`: selected second in phase SAMPLE; the mode flag is true exactly when the line reads low, and nothing else but the phase changes. The
computation of the refresh follows the sample: in phase COMPUTE MAIN selects `SCALE`, `CLAMP` and the position's `V` operation when the flag is true, and the
position's `T` operation when it is false; no selection looks at the line (R205; the selection is R76, R162 and R169, and the three steps of a voltage COMPUTE
are the model's choice, entry 18). -/
def Obligations.ModeIsTheSampledLevel : Prop :=
  ∀ s : State,
    (s.mainPhase = .sample → s.phasePos = 1#2 → select s = some .sampleMode) ∧
    exec .sampleMode s = .next { s with modeVoltage := !s.btnMode, mainPhase := .gate, phasePos := 0#2 } ∧
    (s.mainPhase = .compute → s.modeVoltage = true →
      (s.phasePos = 0#2 → select s = some .scale) ∧
      (s.phasePos = 1#2 → select s = some .clamp) ∧
      (s.phasePos = 2#2 →
        (s.idx = 0#2 → select s = some .v0) ∧ (s.idx = 1#2 → select s = some .v1) ∧
        (s.idx = 2#2 → select s = some .v2) ∧ (s.idx = 3#2 → select s = some .v3))) ∧
    (s.mainPhase = .compute → s.modeVoltage = false →
      (s.idx = 0#2 → select s = some .t0) ∧ (s.idx = 1#2 → select s = some .t1) ∧
      (s.idx = 2#2 → select s = some .t2) ∧ (s.idx = 3#2 → select s = some .t3)) ∧
    (∀ b, select { s with btnMode := b } = select s)

/-- `SCALE` of a ratio num/den is the floor of num * 3300 / den, and `CLAMP` the smaller of its operand and 9999; each writes its own result and nothing else
(R206 with the default of decision D14, R207). -/
def Obligations.ScaleAndClampComputeMillivolts : Prop :=
  ∀ s : State,
    exec .scale s = .next { s with mvRaw := s.pot.num * 3300 / s.pot.den } ∧
    exec .clamp s = .next { s with mv := min s.mvRaw 9999 } ∧
    (s.pot.inRange = true → s.pot.num * 3300 / s.pot.den ≤ 3300)

/-- The two callbacks commute; and of two refresh ticks with any operations but `GATE` and `POR` between them the second changes nothing, so any number of
ticks between two consecutive `GATE` steps count as one (R233, R22, R60 item 2). -/
def Obligations.TimerCallbacksCommuteAndCoalesce : Prop :=
  ∀ s : State,
    andThen (exec .tick1s s) (exec .tick2ms) = andThen (exec .tick2ms s) (exec .tick1s) ∧
    (∀ between : List Instr, Instr.gate ∉ between → Instr.por ∉ between →
      execAll ((.tick2ms :: between) ++ [.tick2ms]) s = execAll (.tick2ms :: between) s)

/-- On a falling edge of the reset button the order of the sample and a second tick matters: sample then tick leaves 1, tick then sample leaves 0 (R266). -/
def Obligations.TickAndResetActionDoNotCommute : Prop :=
  ∀ s : State, s.prevReset = true → s.btnReset = false →
    (∃ t, andThen (exec .sampleReset s) (exec .tick1s) = .next t ∧ t.counter = 1#13) ∧
    (∃ t, andThen (exec .tick1s s) (exec .sampleReset) = .next t ∧ t.counter = 0#13)

/-! ### Reset -/

/-- `POR` gives every register the value R40 lists, empties both traces, and leaves the inputs to ENV; of `SR`, `OUT` and the working values it says nothing
(R260, R40; the values are decisions D7, D8, D9). -/
def Obligations.PowerOnGivesTheResetValues : Prop :=
  ∀ s : State, ∃ t, exec .por s = .next t ∧
    t.counter = 0#13 ∧ t.refreshPending = false ∧ t.idx = 0#2 ∧ t.modeVoltage = false ∧ t.prevReset = true ∧
    t.data = false ∧ t.clk = false ∧ t.latch = false ∧ t.serPos = 0#6 ∧ t.mainPhase = .sample ∧ t.phasePos = 0#2 ∧
    t.lineTrace = [] ∧ t.frameTrace = [] ∧
    t.btnReset = s.btnReset ∧ t.btnMode = s.btnMode ∧ t.pot = s.pot ∧ t.trace = s.trace

/-- The state after reset holds the values of R40 where the spec states one (decisions D7, D8, D10, D22). -/
def Obligations.ResetStateHoldsTheListedValues : Prop :=
  State.reset.counter = 0#13 ∧ State.reset.refreshPending = false ∧ State.reset.idx = 0#2 ∧
  State.reset.modeVoltage = false ∧ State.reset.prevReset = true ∧
  State.reset.data = false ∧ State.reset.clk = false ∧ State.reset.latch = false ∧
  State.reset.serPos = 0#6 ∧ State.reset.mainPhase = .sample ∧
  State.reset.lineTrace = [] ∧ State.reset.frameTrace = []

/-! ### The whole machine -/

/-- Who writes what, every row of the ownership table of R35: an operation that changes a piece of state is one of those the table lists for it (`REFRESH` and
`EMIT` stand for the operations they contain, power-on for reset, and MAIN's row for the operations of MAIN whose pseudocode writes it, entry 31); no operation
changes an input. -/
def Obligations.OnlyTheOwnersWriteEachRegister : Prop :=
  ∀ (s t : State) (i : Instr), exec i s = .next t →
    (t.counter ≠ s.counter → i = .tick1s ∨ i = .sampleReset ∨ i = .por) ∧
    (t.refreshPending ≠ s.refreshPending → i = .tick2ms ∨ i = .gate ∨ i = .por) ∧
    (t.idx ≠ s.idx → i = .idxAdv ∨ i = .refresh ∨ i = .por) ∧
    (t.modeVoltage ≠ s.modeVoltage → i = .sampleMode ∨ i = .por) ∧
    (t.prevReset ≠ s.prevReset → i = .sampleReset ∨ i = .por) ∧
    (t.data ≠ s.data → (∃ b, i = .dataBit b) ∨ (∃ p q, i = .emit p q) ∨ i = .refresh ∨ i = .por) ∧
    (t.clk ≠ s.clk → i = .clkLo ∨ i = .clkHi ∨ (∃ p q, i = .emit p q) ∨ i = .refresh ∨ i = .por) ∧
    (t.latch ≠ s.latch → i = .latchLo ∨ i = .latchHi ∨ (∃ p q, i = .emit p q) ∨ i = .refresh ∨ i = .por) ∧
    (t.serPos ≠ s.serPos → i = .latchLo ∨ (∃ b, i = .dataBit b) ∨ i = .clkLo ∨ i = .clkHi ∨ i = .latchHi ∨ i = .por) ∧
    (t.mainPhase ≠ s.mainPhase → i = .sampleMode ∨ i = .gate ∨ i = .idxAdv ∨ i = .refresh ∨ i = .por) ∧
    (t.snapDigit ≠ s.snapDigit ∨ t.snapSeg ≠ s.snapSeg ∨ t.snapDsel ≠ s.snapDsel →
      i ∈ [Instr.t0, .t1, .t2, .t3, .v0, .v1, .v2, .v3, .refresh, .por]) ∧
    (t.sr ≠ s.sr → i = .clkHi ∨ (∃ p q, i = .emit p q) ∨ i = .refresh ∨ i = .por) ∧
    (t.out ≠ s.out → i = .latchHi ∨ (∃ p q, i = .emit p q) ∨ i = .refresh ∨ i = .por) ∧
    t.btnReset = s.btnReset ∧ t.btnMode = s.btnMode ∧ t.pot = s.pot ∧ t.trace = s.trace

/-- One iteration: from its start the event `LOOP` is the same as MAIN's atomic steps with no other agent between them, 3 of them without a refresh, 55 with one
in time mode, 57 in voltage mode (R203, R88, R176, R29). -/
def Obligations.LoopIsMainStepByStep : Prop :=
  ∀ s : State, atIterationStart s = true → s.serPos = 0#6 → s.trace = [] →
    step { s with trace := [.loop] } =
      runSteps (if s.refreshPending then (if s.btnMode then 55 else 57) else 3) s

/-- A pending refresh is served within one iteration: the frame of the current position, showing the mode's digit, stands at the outputs, and the index has
advanced by one (R160, R176, R178, R203; what the chain holds rests on the chain model of decision D16, entry 22). -/
def Obligations.LoopServesThePendingRefresh : Prop :=
  ∀ (s : State) (rest : List Event), InRange s → atIterationStart s = true → s.serPos = 0#6 →
    s.refreshPending = true → s.trace = .loop :: rest →
    ∃ (t : State) (d : Fin 10), step s = .next t ∧
      d.val = digitShown (!s.btnMode) s.idx (if s.prevReset && !s.btnReset then 0 else s.counter.toNat)
        (min (config.scaleMv s.pot) 9999) ∧
      t.out = frameOf (segPattern config d (pointForced (!s.btnMode) s.idx)) (encDsel config s.idx) ∧
      t.frameTrace = s.frameTrace ++ [t.out] ∧ t.sr = t.out ∧
      t.idx = s.idx + 1#2 ∧ t.refreshPending = false ∧ t.prevReset = s.btnReset ∧
      t.modeVoltage = !s.btnMode ∧ atIterationStart t = true ∧ t.trace = rest

/-- The ranges of R20 and the clamp's bound hold in the state after reset (counter and `ser_pos` by decisions D7 and D22; `mv` and the ratio are the model's own
choices, entries 9 and 10). -/
def Obligations.ResetIsInRange : Prop := InRange State.reset

/-- Every step, bare words among them, keeps the ranges of R20 and the clamp's bound (R21, R201, R27; after power-on `mv` is the model's own 0, entry 9). -/
def Obligations.StepKeepsTheRanges : Prop := ∀ s t : State, InRange s → step s = .next t → InRange t

/-- The display invariant holds after reset, with any hardware trace ahead (reset values of decisions D7, D10, D22; entries 9 and 10). -/
def Obligations.ResetMeetsTheDisplayInvariant : Prop :=
  ∀ tr : List Event, (∀ e ∈ tr, e.ofHardware = true) → DisplayInv { State.reset with trace := tr }

/-- Every step on a hardware trace keeps the display invariant: legal ranges, `ser_pos` 0 outside EMIT, the chain filling in order, every latched frame a digit
at the position the rotation gives it, the index counting refreshes modulo 4, the line trace made of whole blocks of fifty writes (R27, R135, R138, R143, R177, R178;
the chain is decision D16, the values after power-on are decisions D7 and D22 and entry 9). -/
def Obligations.StepKeepsTheDisplayInvariant : Prop :=
  ∀ s t : State, DisplayInv s → step s = .next t → DisplayInv t

/-- The machine never stops: in every state of the display invariant the next step completes, so no lookup leaves its table and MAIN always has a step
(R177, R230, R281, R282). -/
def Obligations.HardwareNeverStops : Prop := ∀ s : State, DisplayInv s → ∃ t, step s = .next t

/-- The receiver of R78, started idle, recovers from the whole line trace exactly the frames that were latched (R8, R78, R141). -/
def Obligations.LineTraceGivesTheFrameTrace : Prop :=
  ∀ s : State, DisplayInv s →
    ((Receiver.mk false false false [] []).seeAll s.lineTrace).frames = s.frameTrace.map frameBits

/-- Frames never outrun refresh ticks: latched frames, plus the pending one, plus the one under way, grow by at most one, and only by a tick of the
2-millisecond timer (R22, R160). -/
def Obligations.FramesNeverOutrunRefreshTicks : Prop :=
  ∀ s t : State, HardwareTrace s → step s = .next t →
    refreshesOwed t ≤ refreshesOwed s + (if s.trace.head? = some .tick2ms then 1 else 0)

/-! ### Every configuration, and endless runs -/

/-- In every configuration the operations take its tables, its mask, its modulus, its scaling, its limit and its line levels, whatever they are (R9, R30,
R100, R112). -/
def Obligations.OperationsTakeTheirConfiguration : Prop :=
  ∀ (c : Config) (s : State),
    (∀ d : Fin 10, execWith c (decodeDcode (BitVec.ofNat 4 d.val)) s = .next { s with result := c.segLut[d] }) ∧
    (∀ i : Fin 4, execWith c (decodePos (BitVec.ofNat 2 i.val)) s = .next { s with result := c.dselLut[i] }) ∧
    (∀ p, execWith c (.forceDp p) s = .next { s with result := p &&& c.dpMask }) ∧
    execWith c .scale s = .next { s with mvRaw := c.scaleMv s.pot } ∧
    execWith c .clamp s = .next { s with mv := min s.mvRaw c.mvMax } ∧
    execWith c .tick1s s = .next { s with
      counter := if s.counter.toNat + 1 ≥ c.wrap then 0#13 else BitVec.ofNat 13 (s.counter.toNat + 1) } ∧
    (∃ t, execWith c .por s = .next t ∧
      t.data = c.pinReset.data ∧ t.clk = c.pinReset.clk ∧ t.latch = c.pinReset.latch)

/-- The display invariant for every configuration that meets its contracts, so for all tables, all scalings and all line levels at reset that the source
allows: it holds after reset with any hardware trace ahead, and every step on a hardware trace keeps it (R9, R40, R135, R138, R177, R178; the open parts of the
configuration are D3, D4, D8, D14; the values after reset and power-on are decisions D7 and D22 and, for `mv` and the ratio, the model's own entries 9 and 10; the
chain is decision D16, entry 22). -/
def Obligations.EveryConfigurationKeepsTheDisplayInvariant : Prop :=
  ∀ c : Config, c.Conforms →
    (∀ tr : List Event, (∀ e ∈ tr, e.ofHardware = true) → DisplayInv { State.resetWith c with trace := tr } c) ∧
    ∀ s t : State, DisplayInv s c → stepWith c s = .next t → DisplayInv t c

/-- Under fairness, in every endless run from a state of the display invariant, every set flag is eventually consumed, and every position is served again and
again: its frame is latched while the index stands at it (R281, R178; decision D18; the chain is decision D16, entry 22). -/
def Obligations.FairRunsServeEveryPosition : Prop :=
  ∀ (states : Nat → State) (events : Nat → Event), Execution states events → Fair events → DisplayInv (states 0) →
    (∀ n, (states n).refreshPending = true →
      ∃ m, n ≤ m ∧ (states m).refreshPending = true ∧ (states (m + 1)).refreshPending = false) ∧
    (∀ n (pos : BitVec 2), ∃ m, n ≤ m ∧ (states m).idx = pos ∧
      (states (m + 1)).frameTrace = (states m).frameTrace ++ [(states (m + 1)).out] ∧ FrameShows config pos (states (m + 1)).out)
end

