-- ==== Sys2Proof/Laws/State.lean ====
section
/-! SUPPORT. One lemma per field per named update of State, so that no later proof unfolds a record update. -/

namespace Sys2Proof.Machine

/-! `enterPhase p` -/

@[simp] theorem enterPhase_counter (p : MainPhase) (s : State) : (enterPhase p s).counter = s.counter := rfl
@[simp] theorem enterPhase_refreshPending (p : MainPhase) (s : State) : (enterPhase p s).refreshPending = s.refreshPending := rfl
@[simp] theorem enterPhase_idx (p : MainPhase) (s : State) : (enterPhase p s).idx = s.idx := rfl
@[simp] theorem enterPhase_modeVoltage (p : MainPhase) (s : State) : (enterPhase p s).modeVoltage = s.modeVoltage := rfl
@[simp] theorem enterPhase_prevReset (p : MainPhase) (s : State) : (enterPhase p s).prevReset = s.prevReset := rfl
@[simp] theorem enterPhase_data (p : MainPhase) (s : State) : (enterPhase p s).data = s.data := rfl
@[simp] theorem enterPhase_clk (p : MainPhase) (s : State) : (enterPhase p s).clk = s.clk := rfl
@[simp] theorem enterPhase_latch (p : MainPhase) (s : State) : (enterPhase p s).latch = s.latch := rfl
@[simp] theorem enterPhase_serPos (p : MainPhase) (s : State) : (enterPhase p s).serPos = s.serPos := rfl
@[simp] theorem enterPhase_snapDigit (p : MainPhase) (s : State) : (enterPhase p s).snapDigit = s.snapDigit := rfl
@[simp] theorem enterPhase_snapSeg (p : MainPhase) (s : State) : (enterPhase p s).snapSeg = s.snapSeg := rfl
@[simp] theorem enterPhase_snapDsel (p : MainPhase) (s : State) : (enterPhase p s).snapDsel = s.snapDsel := rfl
@[simp] theorem enterPhase_mainPhase (p : MainPhase) (s : State) : (enterPhase p s).mainPhase = p := rfl
@[simp] theorem enterPhase_phasePos (p : MainPhase) (s : State) : (enterPhase p s).phasePos = 0#2 := rfl
@[simp] theorem enterPhase_mvRaw (p : MainPhase) (s : State) : (enterPhase p s).mvRaw = s.mvRaw := rfl
@[simp] theorem enterPhase_mv (p : MainPhase) (s : State) : (enterPhase p s).mv = s.mv := rfl
@[simp] theorem enterPhase_result (p : MainPhase) (s : State) : (enterPhase p s).result = s.result := rfl
@[simp] theorem enterPhase_btnReset (p : MainPhase) (s : State) : (enterPhase p s).btnReset = s.btnReset := rfl
@[simp] theorem enterPhase_btnMode (p : MainPhase) (s : State) : (enterPhase p s).btnMode = s.btnMode := rfl
@[simp] theorem enterPhase_pot (p : MainPhase) (s : State) : (enterPhase p s).pot = s.pot := rfl
@[simp] theorem enterPhase_sr (p : MainPhase) (s : State) : (enterPhase p s).sr = s.sr := rfl
@[simp] theorem enterPhase_out (p : MainPhase) (s : State) : (enterPhase p s).out = s.out := rfl
@[simp] theorem enterPhase_lineTrace (p : MainPhase) (s : State) : (enterPhase p s).lineTrace = s.lineTrace := rfl
@[simp] theorem enterPhase_frameTrace (p : MainPhase) (s : State) : (enterPhase p s).frameTrace = s.frameTrace := rfl
@[simp] theorem enterPhase_trace (p : MainPhase) (s : State) : (enterPhase p s).trace = s.trace := rfl
@[simp] theorem enterPhase_freeDraws (p : MainPhase) (s : State) : (enterPhase p s).freeDraws = s.freeDraws := rfl

/-! `setRefreshPending` -/

@[simp] theorem setRefreshPending_counter (s : State) : (setRefreshPending s).counter = s.counter := rfl
@[simp] theorem setRefreshPending_refreshPending (s : State) : (setRefreshPending s).refreshPending = true := rfl
@[simp] theorem setRefreshPending_idx (s : State) : (setRefreshPending s).idx = s.idx := rfl
@[simp] theorem setRefreshPending_modeVoltage (s : State) : (setRefreshPending s).modeVoltage = s.modeVoltage := rfl
@[simp] theorem setRefreshPending_prevReset (s : State) : (setRefreshPending s).prevReset = s.prevReset := rfl
@[simp] theorem setRefreshPending_data (s : State) : (setRefreshPending s).data = s.data := rfl
@[simp] theorem setRefreshPending_clk (s : State) : (setRefreshPending s).clk = s.clk := rfl
@[simp] theorem setRefreshPending_latch (s : State) : (setRefreshPending s).latch = s.latch := rfl
@[simp] theorem setRefreshPending_serPos (s : State) : (setRefreshPending s).serPos = s.serPos := rfl
@[simp] theorem setRefreshPending_snapDigit (s : State) : (setRefreshPending s).snapDigit = s.snapDigit := rfl
@[simp] theorem setRefreshPending_snapSeg (s : State) : (setRefreshPending s).snapSeg = s.snapSeg := rfl
@[simp] theorem setRefreshPending_snapDsel (s : State) : (setRefreshPending s).snapDsel = s.snapDsel := rfl
@[simp] theorem setRefreshPending_mainPhase (s : State) : (setRefreshPending s).mainPhase = s.mainPhase := rfl
@[simp] theorem setRefreshPending_phasePos (s : State) : (setRefreshPending s).phasePos = s.phasePos := rfl
@[simp] theorem setRefreshPending_mvRaw (s : State) : (setRefreshPending s).mvRaw = s.mvRaw := rfl
@[simp] theorem setRefreshPending_mv (s : State) : (setRefreshPending s).mv = s.mv := rfl
@[simp] theorem setRefreshPending_result (s : State) : (setRefreshPending s).result = s.result := rfl
@[simp] theorem setRefreshPending_btnReset (s : State) : (setRefreshPending s).btnReset = s.btnReset := rfl
@[simp] theorem setRefreshPending_btnMode (s : State) : (setRefreshPending s).btnMode = s.btnMode := rfl
@[simp] theorem setRefreshPending_pot (s : State) : (setRefreshPending s).pot = s.pot := rfl
@[simp] theorem setRefreshPending_sr (s : State) : (setRefreshPending s).sr = s.sr := rfl
@[simp] theorem setRefreshPending_out (s : State) : (setRefreshPending s).out = s.out := rfl
@[simp] theorem setRefreshPending_lineTrace (s : State) : (setRefreshPending s).lineTrace = s.lineTrace := rfl
@[simp] theorem setRefreshPending_frameTrace (s : State) : (setRefreshPending s).frameTrace = s.frameTrace := rfl
@[simp] theorem setRefreshPending_trace (s : State) : (setRefreshPending s).trace = s.trace := rfl
@[simp] theorem setRefreshPending_freeDraws (s : State) : (setRefreshPending s).freeDraws = s.freeDraws := rfl

/-! `clearRefreshPending` -/

@[simp] theorem clearRefreshPending_counter (s : State) : (clearRefreshPending s).counter = s.counter := rfl
@[simp] theorem clearRefreshPending_refreshPending (s : State) : (clearRefreshPending s).refreshPending = false := rfl
@[simp] theorem clearRefreshPending_idx (s : State) : (clearRefreshPending s).idx = s.idx := rfl
@[simp] theorem clearRefreshPending_modeVoltage (s : State) : (clearRefreshPending s).modeVoltage = s.modeVoltage := rfl
@[simp] theorem clearRefreshPending_prevReset (s : State) : (clearRefreshPending s).prevReset = s.prevReset := rfl
@[simp] theorem clearRefreshPending_data (s : State) : (clearRefreshPending s).data = s.data := rfl
@[simp] theorem clearRefreshPending_clk (s : State) : (clearRefreshPending s).clk = s.clk := rfl
@[simp] theorem clearRefreshPending_latch (s : State) : (clearRefreshPending s).latch = s.latch := rfl
@[simp] theorem clearRefreshPending_serPos (s : State) : (clearRefreshPending s).serPos = s.serPos := rfl
@[simp] theorem clearRefreshPending_snapDigit (s : State) : (clearRefreshPending s).snapDigit = s.snapDigit := rfl
@[simp] theorem clearRefreshPending_snapSeg (s : State) : (clearRefreshPending s).snapSeg = s.snapSeg := rfl
@[simp] theorem clearRefreshPending_snapDsel (s : State) : (clearRefreshPending s).snapDsel = s.snapDsel := rfl
@[simp] theorem clearRefreshPending_mainPhase (s : State) : (clearRefreshPending s).mainPhase = s.mainPhase := rfl
@[simp] theorem clearRefreshPending_phasePos (s : State) : (clearRefreshPending s).phasePos = s.phasePos := rfl
@[simp] theorem clearRefreshPending_mvRaw (s : State) : (clearRefreshPending s).mvRaw = s.mvRaw := rfl
@[simp] theorem clearRefreshPending_mv (s : State) : (clearRefreshPending s).mv = s.mv := rfl
@[simp] theorem clearRefreshPending_result (s : State) : (clearRefreshPending s).result = s.result := rfl
@[simp] theorem clearRefreshPending_btnReset (s : State) : (clearRefreshPending s).btnReset = s.btnReset := rfl
@[simp] theorem clearRefreshPending_btnMode (s : State) : (clearRefreshPending s).btnMode = s.btnMode := rfl
@[simp] theorem clearRefreshPending_pot (s : State) : (clearRefreshPending s).pot = s.pot := rfl
@[simp] theorem clearRefreshPending_sr (s : State) : (clearRefreshPending s).sr = s.sr := rfl
@[simp] theorem clearRefreshPending_out (s : State) : (clearRefreshPending s).out = s.out := rfl
@[simp] theorem clearRefreshPending_lineTrace (s : State) : (clearRefreshPending s).lineTrace = s.lineTrace := rfl
@[simp] theorem clearRefreshPending_frameTrace (s : State) : (clearRefreshPending s).frameTrace = s.frameTrace := rfl
@[simp] theorem clearRefreshPending_trace (s : State) : (clearRefreshPending s).trace = s.trace := rfl
@[simp] theorem clearRefreshPending_freeDraws (s : State) : (clearRefreshPending s).freeDraws = s.freeDraws := rfl

/-! `setModeFromLevel b` -/

@[simp] theorem setModeFromLevel_counter (b : Bool) (s : State) : (setModeFromLevel b s).counter = s.counter := rfl
@[simp] theorem setModeFromLevel_refreshPending (b : Bool) (s : State) : (setModeFromLevel b s).refreshPending = s.refreshPending := rfl
@[simp] theorem setModeFromLevel_idx (b : Bool) (s : State) : (setModeFromLevel b s).idx = s.idx := rfl
@[simp] theorem setModeFromLevel_modeVoltage (b : Bool) (s : State) : (setModeFromLevel b s).modeVoltage = !b := rfl
@[simp] theorem setModeFromLevel_prevReset (b : Bool) (s : State) : (setModeFromLevel b s).prevReset = s.prevReset := rfl
@[simp] theorem setModeFromLevel_data (b : Bool) (s : State) : (setModeFromLevel b s).data = s.data := rfl
@[simp] theorem setModeFromLevel_clk (b : Bool) (s : State) : (setModeFromLevel b s).clk = s.clk := rfl
@[simp] theorem setModeFromLevel_latch (b : Bool) (s : State) : (setModeFromLevel b s).latch = s.latch := rfl
@[simp] theorem setModeFromLevel_serPos (b : Bool) (s : State) : (setModeFromLevel b s).serPos = s.serPos := rfl
@[simp] theorem setModeFromLevel_snapDigit (b : Bool) (s : State) : (setModeFromLevel b s).snapDigit = s.snapDigit := rfl
@[simp] theorem setModeFromLevel_snapSeg (b : Bool) (s : State) : (setModeFromLevel b s).snapSeg = s.snapSeg := rfl
@[simp] theorem setModeFromLevel_snapDsel (b : Bool) (s : State) : (setModeFromLevel b s).snapDsel = s.snapDsel := rfl
@[simp] theorem setModeFromLevel_mainPhase (b : Bool) (s : State) : (setModeFromLevel b s).mainPhase = s.mainPhase := rfl
@[simp] theorem setModeFromLevel_phasePos (b : Bool) (s : State) : (setModeFromLevel b s).phasePos = s.phasePos := rfl
@[simp] theorem setModeFromLevel_mvRaw (b : Bool) (s : State) : (setModeFromLevel b s).mvRaw = s.mvRaw := rfl
@[simp] theorem setModeFromLevel_mv (b : Bool) (s : State) : (setModeFromLevel b s).mv = s.mv := rfl
@[simp] theorem setModeFromLevel_result (b : Bool) (s : State) : (setModeFromLevel b s).result = s.result := rfl
@[simp] theorem setModeFromLevel_btnReset (b : Bool) (s : State) : (setModeFromLevel b s).btnReset = s.btnReset := rfl
@[simp] theorem setModeFromLevel_btnMode (b : Bool) (s : State) : (setModeFromLevel b s).btnMode = s.btnMode := rfl
@[simp] theorem setModeFromLevel_pot (b : Bool) (s : State) : (setModeFromLevel b s).pot = s.pot := rfl
@[simp] theorem setModeFromLevel_sr (b : Bool) (s : State) : (setModeFromLevel b s).sr = s.sr := rfl
@[simp] theorem setModeFromLevel_out (b : Bool) (s : State) : (setModeFromLevel b s).out = s.out := rfl
@[simp] theorem setModeFromLevel_lineTrace (b : Bool) (s : State) : (setModeFromLevel b s).lineTrace = s.lineTrace := rfl
@[simp] theorem setModeFromLevel_frameTrace (b : Bool) (s : State) : (setModeFromLevel b s).frameTrace = s.frameTrace := rfl
@[simp] theorem setModeFromLevel_trace (b : Bool) (s : State) : (setModeFromLevel b s).trace = s.trace := rfl
@[simp] theorem setModeFromLevel_freeDraws (b : Bool) (s : State) : (setModeFromLevel b s).freeDraws = s.freeDraws := rfl

/-! `chainClock` -/

@[simp] theorem chainClock_counter (s : State) : (chainClock s).counter = s.counter := rfl
@[simp] theorem chainClock_refreshPending (s : State) : (chainClock s).refreshPending = s.refreshPending := rfl
@[simp] theorem chainClock_idx (s : State) : (chainClock s).idx = s.idx := rfl
@[simp] theorem chainClock_modeVoltage (s : State) : (chainClock s).modeVoltage = s.modeVoltage := rfl
@[simp] theorem chainClock_prevReset (s : State) : (chainClock s).prevReset = s.prevReset := rfl
@[simp] theorem chainClock_data (s : State) : (chainClock s).data = s.data := rfl
@[simp] theorem chainClock_clk (s : State) : (chainClock s).clk = s.clk := rfl
@[simp] theorem chainClock_latch (s : State) : (chainClock s).latch = s.latch := rfl
@[simp] theorem chainClock_serPos (s : State) : (chainClock s).serPos = s.serPos := rfl
@[simp] theorem chainClock_snapDigit (s : State) : (chainClock s).snapDigit = s.snapDigit := rfl
@[simp] theorem chainClock_snapSeg (s : State) : (chainClock s).snapSeg = s.snapSeg := rfl
@[simp] theorem chainClock_snapDsel (s : State) : (chainClock s).snapDsel = s.snapDsel := rfl
@[simp] theorem chainClock_mainPhase (s : State) : (chainClock s).mainPhase = s.mainPhase := rfl
@[simp] theorem chainClock_phasePos (s : State) : (chainClock s).phasePos = s.phasePos := rfl
@[simp] theorem chainClock_mvRaw (s : State) : (chainClock s).mvRaw = s.mvRaw := rfl
@[simp] theorem chainClock_mv (s : State) : (chainClock s).mv = s.mv := rfl
@[simp] theorem chainClock_result (s : State) : (chainClock s).result = s.result := rfl
@[simp] theorem chainClock_btnReset (s : State) : (chainClock s).btnReset = s.btnReset := rfl
@[simp] theorem chainClock_btnMode (s : State) : (chainClock s).btnMode = s.btnMode := rfl
@[simp] theorem chainClock_pot (s : State) : (chainClock s).pot = s.pot := rfl
@[simp] theorem chainClock_sr (s : State) : (chainClock s).sr = chainShift s.sr s.data := rfl
@[simp] theorem chainClock_out (s : State) : (chainClock s).out = s.out := rfl
@[simp] theorem chainClock_lineTrace (s : State) : (chainClock s).lineTrace = s.lineTrace := rfl
@[simp] theorem chainClock_frameTrace (s : State) : (chainClock s).frameTrace = s.frameTrace := rfl
@[simp] theorem chainClock_trace (s : State) : (chainClock s).trace = s.trace := rfl
@[simp] theorem chainClock_freeDraws (s : State) : (chainClock s).freeDraws = s.freeDraws := rfl

/-! `chainLatch` -/

@[simp] theorem chainLatch_counter (s : State) : (chainLatch s).counter = s.counter := rfl
@[simp] theorem chainLatch_refreshPending (s : State) : (chainLatch s).refreshPending = s.refreshPending := rfl
@[simp] theorem chainLatch_idx (s : State) : (chainLatch s).idx = s.idx := rfl
@[simp] theorem chainLatch_modeVoltage (s : State) : (chainLatch s).modeVoltage = s.modeVoltage := rfl
@[simp] theorem chainLatch_prevReset (s : State) : (chainLatch s).prevReset = s.prevReset := rfl
@[simp] theorem chainLatch_data (s : State) : (chainLatch s).data = s.data := rfl
@[simp] theorem chainLatch_clk (s : State) : (chainLatch s).clk = s.clk := rfl
@[simp] theorem chainLatch_latch (s : State) : (chainLatch s).latch = s.latch := rfl
@[simp] theorem chainLatch_serPos (s : State) : (chainLatch s).serPos = s.serPos := rfl
@[simp] theorem chainLatch_snapDigit (s : State) : (chainLatch s).snapDigit = s.snapDigit := rfl
@[simp] theorem chainLatch_snapSeg (s : State) : (chainLatch s).snapSeg = s.snapSeg := rfl
@[simp] theorem chainLatch_snapDsel (s : State) : (chainLatch s).snapDsel = s.snapDsel := rfl
@[simp] theorem chainLatch_mainPhase (s : State) : (chainLatch s).mainPhase = s.mainPhase := rfl
@[simp] theorem chainLatch_phasePos (s : State) : (chainLatch s).phasePos = s.phasePos := rfl
@[simp] theorem chainLatch_mvRaw (s : State) : (chainLatch s).mvRaw = s.mvRaw := rfl
@[simp] theorem chainLatch_mv (s : State) : (chainLatch s).mv = s.mv := rfl
@[simp] theorem chainLatch_result (s : State) : (chainLatch s).result = s.result := rfl
@[simp] theorem chainLatch_btnReset (s : State) : (chainLatch s).btnReset = s.btnReset := rfl
@[simp] theorem chainLatch_btnMode (s : State) : (chainLatch s).btnMode = s.btnMode := rfl
@[simp] theorem chainLatch_pot (s : State) : (chainLatch s).pot = s.pot := rfl
@[simp] theorem chainLatch_sr (s : State) : (chainLatch s).sr = s.sr := rfl
@[simp] theorem chainLatch_out (s : State) : (chainLatch s).out = s.sr := rfl
@[simp] theorem chainLatch_lineTrace (s : State) : (chainLatch s).lineTrace = s.lineTrace := rfl
@[simp] theorem chainLatch_frameTrace (s : State) : (chainLatch s).frameTrace = s.frameTrace ++ [s.sr] := rfl
@[simp] theorem chainLatch_trace (s : State) : (chainLatch s).trace = s.trace := rfl
@[simp] theorem chainLatch_freeDraws (s : State) : (chainLatch s).freeDraws = s.freeDraws := rfl

/-! `driveLine .data b` -/

@[simp] theorem driveLine_data_counter (b : Bool) (s : State) : (driveLine .data b s).counter = s.counter := rfl
@[simp] theorem driveLine_data_refreshPending (b : Bool) (s : State) : (driveLine .data b s).refreshPending = s.refreshPending := rfl
@[simp] theorem driveLine_data_idx (b : Bool) (s : State) : (driveLine .data b s).idx = s.idx := rfl
@[simp] theorem driveLine_data_modeVoltage (b : Bool) (s : State) : (driveLine .data b s).modeVoltage = s.modeVoltage := rfl
@[simp] theorem driveLine_data_prevReset (b : Bool) (s : State) : (driveLine .data b s).prevReset = s.prevReset := rfl
@[simp] theorem driveLine_data_data (b : Bool) (s : State) : (driveLine .data b s).data = b := rfl
@[simp] theorem driveLine_data_clk (b : Bool) (s : State) : (driveLine .data b s).clk = s.clk := rfl
@[simp] theorem driveLine_data_latch (b : Bool) (s : State) : (driveLine .data b s).latch = s.latch := rfl
@[simp] theorem driveLine_data_serPos (b : Bool) (s : State) : (driveLine .data b s).serPos = s.serPos := rfl
@[simp] theorem driveLine_data_snapDigit (b : Bool) (s : State) : (driveLine .data b s).snapDigit = s.snapDigit := rfl
@[simp] theorem driveLine_data_snapSeg (b : Bool) (s : State) : (driveLine .data b s).snapSeg = s.snapSeg := rfl
@[simp] theorem driveLine_data_snapDsel (b : Bool) (s : State) : (driveLine .data b s).snapDsel = s.snapDsel := rfl
@[simp] theorem driveLine_data_mainPhase (b : Bool) (s : State) : (driveLine .data b s).mainPhase = s.mainPhase := rfl
@[simp] theorem driveLine_data_phasePos (b : Bool) (s : State) : (driveLine .data b s).phasePos = s.phasePos := rfl
@[simp] theorem driveLine_data_mvRaw (b : Bool) (s : State) : (driveLine .data b s).mvRaw = s.mvRaw := rfl
@[simp] theorem driveLine_data_mv (b : Bool) (s : State) : (driveLine .data b s).mv = s.mv := rfl
@[simp] theorem driveLine_data_result (b : Bool) (s : State) : (driveLine .data b s).result = s.result := rfl
@[simp] theorem driveLine_data_btnReset (b : Bool) (s : State) : (driveLine .data b s).btnReset = s.btnReset := rfl
@[simp] theorem driveLine_data_btnMode (b : Bool) (s : State) : (driveLine .data b s).btnMode = s.btnMode := rfl
@[simp] theorem driveLine_data_pot (b : Bool) (s : State) : (driveLine .data b s).pot = s.pot := rfl
@[simp] theorem driveLine_data_sr (b : Bool) (s : State) : (driveLine .data b s).sr = s.sr := rfl
@[simp] theorem driveLine_data_out (b : Bool) (s : State) : (driveLine .data b s).out = s.out := rfl
@[simp] theorem driveLine_data_lineTrace (b : Bool) (s : State) : (driveLine .data b s).lineTrace = s.lineTrace ++ [(.data, b)] := rfl
@[simp] theorem driveLine_data_frameTrace (b : Bool) (s : State) : (driveLine .data b s).frameTrace = s.frameTrace := rfl
@[simp] theorem driveLine_data_trace (b : Bool) (s : State) : (driveLine .data b s).trace = s.trace := rfl
@[simp] theorem driveLine_data_freeDraws (b : Bool) (s : State) : (driveLine .data b s).freeDraws = s.freeDraws := rfl

/-! `driveLine .clk b` -/

@[simp] theorem driveLine_clk_counter (b : Bool) (s : State) : (driveLine .clk b s).counter = s.counter := rfl
@[simp] theorem driveLine_clk_refreshPending (b : Bool) (s : State) : (driveLine .clk b s).refreshPending = s.refreshPending := rfl
@[simp] theorem driveLine_clk_idx (b : Bool) (s : State) : (driveLine .clk b s).idx = s.idx := rfl
@[simp] theorem driveLine_clk_modeVoltage (b : Bool) (s : State) : (driveLine .clk b s).modeVoltage = s.modeVoltage := rfl
@[simp] theorem driveLine_clk_prevReset (b : Bool) (s : State) : (driveLine .clk b s).prevReset = s.prevReset := rfl
@[simp] theorem driveLine_clk_data (b : Bool) (s : State) : (driveLine .clk b s).data = s.data := rfl
@[simp] theorem driveLine_clk_clk (b : Bool) (s : State) : (driveLine .clk b s).clk = b := rfl
@[simp] theorem driveLine_clk_latch (b : Bool) (s : State) : (driveLine .clk b s).latch = s.latch := rfl
@[simp] theorem driveLine_clk_serPos (b : Bool) (s : State) : (driveLine .clk b s).serPos = s.serPos := rfl
@[simp] theorem driveLine_clk_snapDigit (b : Bool) (s : State) : (driveLine .clk b s).snapDigit = s.snapDigit := rfl
@[simp] theorem driveLine_clk_snapSeg (b : Bool) (s : State) : (driveLine .clk b s).snapSeg = s.snapSeg := rfl
@[simp] theorem driveLine_clk_snapDsel (b : Bool) (s : State) : (driveLine .clk b s).snapDsel = s.snapDsel := rfl
@[simp] theorem driveLine_clk_mainPhase (b : Bool) (s : State) : (driveLine .clk b s).mainPhase = s.mainPhase := rfl
@[simp] theorem driveLine_clk_phasePos (b : Bool) (s : State) : (driveLine .clk b s).phasePos = s.phasePos := rfl
@[simp] theorem driveLine_clk_mvRaw (b : Bool) (s : State) : (driveLine .clk b s).mvRaw = s.mvRaw := rfl
@[simp] theorem driveLine_clk_mv (b : Bool) (s : State) : (driveLine .clk b s).mv = s.mv := rfl
@[simp] theorem driveLine_clk_result (b : Bool) (s : State) : (driveLine .clk b s).result = s.result := rfl
@[simp] theorem driveLine_clk_btnReset (b : Bool) (s : State) : (driveLine .clk b s).btnReset = s.btnReset := rfl
@[simp] theorem driveLine_clk_btnMode (b : Bool) (s : State) : (driveLine .clk b s).btnMode = s.btnMode := rfl
@[simp] theorem driveLine_clk_pot (b : Bool) (s : State) : (driveLine .clk b s).pot = s.pot := rfl
@[simp] theorem driveLine_clk_sr (b : Bool) (s : State) : (driveLine .clk b s).sr = s.sr := rfl
@[simp] theorem driveLine_clk_out (b : Bool) (s : State) : (driveLine .clk b s).out = s.out := rfl
@[simp] theorem driveLine_clk_lineTrace (b : Bool) (s : State) : (driveLine .clk b s).lineTrace = s.lineTrace ++ [(.clk, b)] := rfl
@[simp] theorem driveLine_clk_frameTrace (b : Bool) (s : State) : (driveLine .clk b s).frameTrace = s.frameTrace := rfl
@[simp] theorem driveLine_clk_trace (b : Bool) (s : State) : (driveLine .clk b s).trace = s.trace := rfl
@[simp] theorem driveLine_clk_freeDraws (b : Bool) (s : State) : (driveLine .clk b s).freeDraws = s.freeDraws := rfl

/-! `driveLine .latch b` -/

@[simp] theorem driveLine_latch_counter (b : Bool) (s : State) : (driveLine .latch b s).counter = s.counter := rfl
@[simp] theorem driveLine_latch_refreshPending (b : Bool) (s : State) : (driveLine .latch b s).refreshPending = s.refreshPending := rfl
@[simp] theorem driveLine_latch_idx (b : Bool) (s : State) : (driveLine .latch b s).idx = s.idx := rfl
@[simp] theorem driveLine_latch_modeVoltage (b : Bool) (s : State) : (driveLine .latch b s).modeVoltage = s.modeVoltage := rfl
@[simp] theorem driveLine_latch_prevReset (b : Bool) (s : State) : (driveLine .latch b s).prevReset = s.prevReset := rfl
@[simp] theorem driveLine_latch_data (b : Bool) (s : State) : (driveLine .latch b s).data = s.data := rfl
@[simp] theorem driveLine_latch_clk (b : Bool) (s : State) : (driveLine .latch b s).clk = s.clk := rfl
@[simp] theorem driveLine_latch_latch (b : Bool) (s : State) : (driveLine .latch b s).latch = b := rfl
@[simp] theorem driveLine_latch_serPos (b : Bool) (s : State) : (driveLine .latch b s).serPos = s.serPos := rfl
@[simp] theorem driveLine_latch_snapDigit (b : Bool) (s : State) : (driveLine .latch b s).snapDigit = s.snapDigit := rfl
@[simp] theorem driveLine_latch_snapSeg (b : Bool) (s : State) : (driveLine .latch b s).snapSeg = s.snapSeg := rfl
@[simp] theorem driveLine_latch_snapDsel (b : Bool) (s : State) : (driveLine .latch b s).snapDsel = s.snapDsel := rfl
@[simp] theorem driveLine_latch_mainPhase (b : Bool) (s : State) : (driveLine .latch b s).mainPhase = s.mainPhase := rfl
@[simp] theorem driveLine_latch_phasePos (b : Bool) (s : State) : (driveLine .latch b s).phasePos = s.phasePos := rfl
@[simp] theorem driveLine_latch_mvRaw (b : Bool) (s : State) : (driveLine .latch b s).mvRaw = s.mvRaw := rfl
@[simp] theorem driveLine_latch_mv (b : Bool) (s : State) : (driveLine .latch b s).mv = s.mv := rfl
@[simp] theorem driveLine_latch_result (b : Bool) (s : State) : (driveLine .latch b s).result = s.result := rfl
@[simp] theorem driveLine_latch_btnReset (b : Bool) (s : State) : (driveLine .latch b s).btnReset = s.btnReset := rfl
@[simp] theorem driveLine_latch_btnMode (b : Bool) (s : State) : (driveLine .latch b s).btnMode = s.btnMode := rfl
@[simp] theorem driveLine_latch_pot (b : Bool) (s : State) : (driveLine .latch b s).pot = s.pot := rfl
@[simp] theorem driveLine_latch_sr (b : Bool) (s : State) : (driveLine .latch b s).sr = s.sr := rfl
@[simp] theorem driveLine_latch_out (b : Bool) (s : State) : (driveLine .latch b s).out = s.out := rfl
@[simp] theorem driveLine_latch_lineTrace (b : Bool) (s : State) : (driveLine .latch b s).lineTrace = s.lineTrace ++ [(.latch, b)] := rfl
@[simp] theorem driveLine_latch_frameTrace (b : Bool) (s : State) : (driveLine .latch b s).frameTrace = s.frameTrace := rfl
@[simp] theorem driveLine_latch_trace (b : Bool) (s : State) : (driveLine .latch b s).trace = s.trace := rfl
@[simp] theorem driveLine_latch_freeDraws (b : Bool) (s : State) : (driveLine .latch b s).freeDraws = s.freeDraws := rfl

/-! `setSerPos p` -/

@[simp] theorem setSerPos_counter (p : BitVec 6) (s : State) : (setSerPos p s).counter = s.counter := rfl
@[simp] theorem setSerPos_refreshPending (p : BitVec 6) (s : State) : (setSerPos p s).refreshPending = s.refreshPending := rfl
@[simp] theorem setSerPos_idx (p : BitVec 6) (s : State) : (setSerPos p s).idx = s.idx := rfl
@[simp] theorem setSerPos_modeVoltage (p : BitVec 6) (s : State) : (setSerPos p s).modeVoltage = s.modeVoltage := rfl
@[simp] theorem setSerPos_prevReset (p : BitVec 6) (s : State) : (setSerPos p s).prevReset = s.prevReset := rfl
@[simp] theorem setSerPos_data (p : BitVec 6) (s : State) : (setSerPos p s).data = s.data := rfl
@[simp] theorem setSerPos_clk (p : BitVec 6) (s : State) : (setSerPos p s).clk = s.clk := rfl
@[simp] theorem setSerPos_latch (p : BitVec 6) (s : State) : (setSerPos p s).latch = s.latch := rfl
@[simp] theorem setSerPos_serPos (p : BitVec 6) (s : State) : (setSerPos p s).serPos = p := rfl
@[simp] theorem setSerPos_snapDigit (p : BitVec 6) (s : State) : (setSerPos p s).snapDigit = s.snapDigit := rfl
@[simp] theorem setSerPos_snapSeg (p : BitVec 6) (s : State) : (setSerPos p s).snapSeg = s.snapSeg := rfl
@[simp] theorem setSerPos_snapDsel (p : BitVec 6) (s : State) : (setSerPos p s).snapDsel = s.snapDsel := rfl
@[simp] theorem setSerPos_mainPhase (p : BitVec 6) (s : State) : (setSerPos p s).mainPhase = s.mainPhase := rfl
@[simp] theorem setSerPos_phasePos (p : BitVec 6) (s : State) : (setSerPos p s).phasePos = s.phasePos := rfl
@[simp] theorem setSerPos_mvRaw (p : BitVec 6) (s : State) : (setSerPos p s).mvRaw = s.mvRaw := rfl
@[simp] theorem setSerPos_mv (p : BitVec 6) (s : State) : (setSerPos p s).mv = s.mv := rfl
@[simp] theorem setSerPos_result (p : BitVec 6) (s : State) : (setSerPos p s).result = s.result := rfl
@[simp] theorem setSerPos_btnReset (p : BitVec 6) (s : State) : (setSerPos p s).btnReset = s.btnReset := rfl
@[simp] theorem setSerPos_btnMode (p : BitVec 6) (s : State) : (setSerPos p s).btnMode = s.btnMode := rfl
@[simp] theorem setSerPos_pot (p : BitVec 6) (s : State) : (setSerPos p s).pot = s.pot := rfl
@[simp] theorem setSerPos_sr (p : BitVec 6) (s : State) : (setSerPos p s).sr = s.sr := rfl
@[simp] theorem setSerPos_out (p : BitVec 6) (s : State) : (setSerPos p s).out = s.out := rfl
@[simp] theorem setSerPos_lineTrace (p : BitVec 6) (s : State) : (setSerPos p s).lineTrace = s.lineTrace := rfl
@[simp] theorem setSerPos_frameTrace (p : BitVec 6) (s : State) : (setSerPos p s).frameTrace = s.frameTrace := rfl
@[simp] theorem setSerPos_trace (p : BitVec 6) (s : State) : (setSerPos p s).trace = s.trace := rfl
@[simp] theorem setSerPos_freeDraws (p : BitVec 6) (s : State) : (setSerPos p s).freeDraws = s.freeDraws := rfl

@[simp] theorem setSerPos_setSerPos (p q : BitVec 6) (s : State) : setSerPos p (setSerPos q s) = setSerPos p s := rfl

end Sys2Proof.Machine
end

