-- ==== Sys2Proof/Laws/Ops.lean ====
section
/-! SUPPORT. One lemma per shared operation that says everything it can do. -/

namespace Sys2Proof.Machine

/-! Sequencing of outcomes -/

@[simp] theorem andThen_of_next (s : State) (f : State → Outcome) : andThen (.next s) f = f s := rfl
@[simp] theorem andThen_of_fault (r : Fault) (f : State → Outcome) : andThen (.fault r) f = .fault r := rfl
@[simp] theorem andThen_of_refused (r : Refusal) (f : State → Outcome) : andThen (.refused r) f = .refused r := rfl

/-- A sequence completes exactly when both parts do. -/
theorem andThen_eq_next {o : Outcome} {f : State → Outcome} {t : State} :
    andThen o f = .next t ↔ ∃ s, o = .next s ∧ f s = .next t := by
  cases o <;> simp

/-- Sequencing is associative. -/
theorem andThen_assoc (o : Outcome) (f g : State → Outcome) :
    andThen (andThen o f) g = andThen o fun s => andThen (f s) g := by
  cases o <;> rfl

/-! The machine's configuration, field by field (R9) -/

@[simp] theorem config_segLut : config.segLut = segLutDefault := rfl
@[simp] theorem config_dselLut : config.dselLut = dselLutDefault := rfl
@[simp] theorem config_dpMask : config.dpMask = 0x7F#8 := rfl
@[simp] theorem config_wrap : config.wrap = 6000 := rfl
@[simp] theorem config_mvMax : config.mvMax = 9999 := rfl
@[simp] theorem config_vref : config.vref = ⟨33, 10⟩ := rfl
@[simp] theorem config_mvPerV : config.mvPerV = 1000 := rfl
@[simp] theorem config_counterBits : config.counterBits = 13 := rfl

/-- The scaling is the exact product of the ratio with the record's own two constants, truncated (R206). -/
@[simp] theorem config_scaleMv : config.scaleMv = scaleExact config.vref config.mvPerV := rfl
@[simp] theorem config_pinReset : config.pinReset = ⟨false, false, false⟩ := rfl

/-- The increment and compare of `TICK1S` as one value (R200, D23). -/
theorem tickCounter_toNat {c : Config} (hc : c.wrap = 6000) (n : BitVec 13) :
    (tickCounter c n).toNat = if 5999 ≤ n.toNat then 0 else n.toNat + 1 := by
  have := n.isLt
  unfold tickCounter
  simp only [hc, ge_iff_le]
  by_cases h : 6000 ≤ n.toNat + 1
  · rw [if_pos h, if_pos (by omega)]; rfl
  · rw [if_neg h, if_neg (by omega), BitVec.toNat_ofNat, Nat.mod_eq_of_lt (by omega)]

/-- The clamp never exceeds its limit (R207). -/
theorem clampMv_le (c : Config) (n : Nat) : clampMv c n ≤ c.mvMax := Nat.min_le_right _ _

/-! Table reads -/

/-- Inside the table a segment lookup gives the entry (R51). -/
theorem encSeg_of_lt (c : Config) (d : Fin 10) : encSeg c d.val = .ok c.segLut[d] := by
  simp [encSeg, tableRead]

/-- Outside the table a segment lookup faults (R51). -/
theorem encSeg_of_ge (c : Config) {d : Nat} (h : 10 ≤ d) : encSeg c d = .error (.lutIndexFault .seg d) := by
  simp [encSeg, tableRead, Vector.getElem?_eq_none h]

/-- The four digit-select reads (R112). -/
theorem encDsel_eq (c : Config) (i : Fin 4) : encDsel c (BitVec.ofNat 2 i.val) = c.dselLut[i] := by
  match i with
  | 0 => rfl
  | 1 => rfl
  | 2 => rfl
  | 3 => rfl

/-- A digit in the table is shown: the three working values are written, nothing else (R82). -/
theorem showDigit_of_lt (c : Config) (d : Fin 10) (pos : BitVec 2) (point : Bool) (s : State) :
    showDigit c d.val pos point s = .next { s with
      snapDigit := BitVec.ofNat 4 d.val
      snapSeg := if point then forcePoint c c.segLut[d] else c.segLut[d]
      snapDsel := encDsel c pos } := by
  simp [showDigit, encSeg_of_lt]

/-- A digit outside the table faults (R51). -/
theorem showDigit_of_ge (c : Config) {d : Nat} (h : 10 ≤ d) (pos : BitVec 2) (point : Bool) (s : State) :
    showDigit c d pos point s = .fault (.lutIndexFault .seg d) := by
  simp [showDigit, encSeg_of_ge c h]

/-- Where a digit is shown it is in the table. -/
theorem showDigit_eq_next {c : Config} {d : Nat} {pos : BitVec 2} {point : Bool} {s t : State}
    (h : showDigit c d pos point s = .next t) :
    ∃ e : Fin 10, e.val = d ∧ t = { s with
      snapDigit := BitVec.ofNat 4 e.val
      snapSeg := if point then forcePoint c c.segLut[e] else c.segLut[e]
      snapDsel := encDsel c pos } := by
  by_cases hd : d < 10
  · refine ⟨⟨d, hd⟩, rfl, ?_⟩
    have := showDigit_of_lt c ⟨d, hd⟩ pos point s
    rw [show showDigit c d pos point s = _ from this] at h
    exact (Host.Outcome.next.inj h).symm
  · rw [showDigit_of_ge c (by omega)] at h
    cases h

/-! Pin writes -/

theorem pinWrite_data (b : Bool) (s : State) :
    pinWrite .data b s = { s with data := b, lineTrace := s.lineTrace ++ [(.data, b)] } := rfl

/-- A rising edge of CLK (R140). -/
theorem pinWrite_clk_rise {s : State} (h : s.clk = false) :
    pinWrite .clk true s =
      { s with clk := true, lineTrace := s.lineTrace ++ [(.clk, true)], sr := chainShift s.sr s.data } := by
  simp [pinWrite, h, chainClock, driveLine]

/-- Any other write of CLK (R142). -/
theorem pinWrite_clk_low (s : State) :
    pinWrite .clk false s = { s with clk := false, lineTrace := s.lineTrace ++ [(.clk, false)] } := rfl

theorem pinWrite_clk_high {s : State} (b : Bool) (h : s.clk = true) :
    pinWrite .clk b s = { s with clk := b, lineTrace := s.lineTrace ++ [(.clk, b)] } := by
  simp [pinWrite, h, driveLine]

/-- A rising edge of LATCH (R141). -/
theorem pinWrite_latch_rise {s : State} (h : s.latch = false) :
    pinWrite .latch true s =
      { s with latch := true, lineTrace := s.lineTrace ++ [(.latch, true)], out := s.sr, frameTrace := s.frameTrace ++ [s.sr] } := by
  simp [pinWrite, h, chainLatch, driveLine]

/-- Any other write of LATCH (R142). -/
theorem pinWrite_latch_low (s : State) :
    pinWrite .latch false s = { s with latch := false, lineTrace := s.lineTrace ++ [(.latch, false)] } := rfl

theorem pinWrite_latch_high {s : State} (b : Bool) (h : s.latch = true) :
    pinWrite .latch b s = { s with latch := b, lineTrace := s.lineTrace ++ [(.latch, b)] } := by
  simp [pinWrite, h, driveLine]

/-- Every pin write adds its entry to the line trace (R12). -/
@[simp] theorem pinWrite_lineTrace (l : Line) (b : Bool) (s : State) :
    (pinWrite l b s).lineTrace = s.lineTrace ++ [(l, b)] := by
  cases l <;> simp only [pinWrite] <;> try split
  all_goals rfl

/-! What no pin write touches. -/

@[simp] theorem pinWrite_counter (l : Line) (b : Bool) (s : State) : (pinWrite l b s).counter = s.counter := by
  cases l <;> simp only [pinWrite] <;> try split
  all_goals rfl

@[simp] theorem pinWrite_refreshPending (l : Line) (b : Bool) (s : State) : (pinWrite l b s).refreshPending = s.refreshPending := by
  cases l <;> simp only [pinWrite] <;> try split
  all_goals rfl

@[simp] theorem pinWrite_idx (l : Line) (b : Bool) (s : State) : (pinWrite l b s).idx = s.idx := by
  cases l <;> simp only [pinWrite] <;> try split
  all_goals rfl

@[simp] theorem pinWrite_modeVoltage (l : Line) (b : Bool) (s : State) : (pinWrite l b s).modeVoltage = s.modeVoltage := by
  cases l <;> simp only [pinWrite] <;> try split
  all_goals rfl

@[simp] theorem pinWrite_prevReset (l : Line) (b : Bool) (s : State) : (pinWrite l b s).prevReset = s.prevReset := by
  cases l <;> simp only [pinWrite] <;> try split
  all_goals rfl

@[simp] theorem pinWrite_serPos (l : Line) (b : Bool) (s : State) : (pinWrite l b s).serPos = s.serPos := by
  cases l <;> simp only [pinWrite] <;> try split
  all_goals rfl

@[simp] theorem pinWrite_snapDigit (l : Line) (b : Bool) (s : State) : (pinWrite l b s).snapDigit = s.snapDigit := by
  cases l <;> simp only [pinWrite] <;> try split
  all_goals rfl

@[simp] theorem pinWrite_snapSeg (l : Line) (b : Bool) (s : State) : (pinWrite l b s).snapSeg = s.snapSeg := by
  cases l <;> simp only [pinWrite] <;> try split
  all_goals rfl

@[simp] theorem pinWrite_snapDsel (l : Line) (b : Bool) (s : State) : (pinWrite l b s).snapDsel = s.snapDsel := by
  cases l <;> simp only [pinWrite] <;> try split
  all_goals rfl

@[simp] theorem pinWrite_mainPhase (l : Line) (b : Bool) (s : State) : (pinWrite l b s).mainPhase = s.mainPhase := by
  cases l <;> simp only [pinWrite] <;> try split
  all_goals rfl

@[simp] theorem pinWrite_phasePos (l : Line) (b : Bool) (s : State) : (pinWrite l b s).phasePos = s.phasePos := by
  cases l <;> simp only [pinWrite] <;> try split
  all_goals rfl

@[simp] theorem pinWrite_mvRaw (l : Line) (b : Bool) (s : State) : (pinWrite l b s).mvRaw = s.mvRaw := by
  cases l <;> simp only [pinWrite] <;> try split
  all_goals rfl

@[simp] theorem pinWrite_mv (l : Line) (b : Bool) (s : State) : (pinWrite l b s).mv = s.mv := by
  cases l <;> simp only [pinWrite] <;> try split
  all_goals rfl

@[simp] theorem pinWrite_result (l : Line) (b : Bool) (s : State) : (pinWrite l b s).result = s.result := by
  cases l <;> simp only [pinWrite] <;> try split
  all_goals rfl

@[simp] theorem pinWrite_btnReset (l : Line) (b : Bool) (s : State) : (pinWrite l b s).btnReset = s.btnReset := by
  cases l <;> simp only [pinWrite] <;> try split
  all_goals rfl

@[simp] theorem pinWrite_btnMode (l : Line) (b : Bool) (s : State) : (pinWrite l b s).btnMode = s.btnMode := by
  cases l <;> simp only [pinWrite] <;> try split
  all_goals rfl

@[simp] theorem pinWrite_pot (l : Line) (b : Bool) (s : State) : (pinWrite l b s).pot = s.pot := by
  cases l <;> simp only [pinWrite] <;> try split
  all_goals rfl

@[simp] theorem pinWrite_trace (l : Line) (b : Bool) (s : State) : (pinWrite l b s).trace = s.trace := by
  cases l <;> simp only [pinWrite] <;> try split
  all_goals rfl

@[simp] theorem pinWrite_freeDraws (l : Line) (b : Bool) (s : State) : (pinWrite l b s).freeDraws = s.freeDraws := by
  cases l <;> simp only [pinWrite] <;> try split
  all_goals rfl

@[simp] theorem pinWrites_nil (s : State) : pinWrites [] s = s := rfl
@[simp] theorem pinWrites_cons (w : Line × Bool) (ws : List (Line × Bool)) (s : State) :
    pinWrites (w :: ws) s = pinWrites ws (pinWrite w.1 w.2 s) := rfl

/-- The serializer's position plays no part in a pin write. -/
@[simp] theorem pinWrite_setSerPos (l : Line) (b : Bool) (p : BitVec 6) (s : State) :
    pinWrite l b (setSerPos p s) = setSerPos p (pinWrite l b s) := by
  cases l with
  | data => rfl
  | clk => cases b <;> cases h : s.clk <;> simp [pinWrite, h, chainClock, driveLine, setSerPos]
  | latch => cases b <;> cases h : s.latch <;> simp [pinWrite, h, chainLatch, driveLine, setSerPos]

@[simp] theorem pinWrites_setSerPos (ws : List (Line × Bool)) (p : BitVec 6) (s : State) :
    pinWrites ws (setSerPos p s) = setSerPos p (pinWrites ws s) := by
  induction ws generalizing s with
  | nil => rfl
  | cons w ws ih => simp [ih]

/-- Lists of pin writes compose. -/
theorem pinWrites_append (ws vs : List (Line × Bool)) (s : State) :
    pinWrites (ws ++ vs) s = pinWrites vs (pinWrites ws s) := by
  simp [pinWrites]

/-- A list of pin writes is recorded whole in the line trace. -/
@[simp] theorem pinWrites_lineTrace (ws : List (Line × Bool)) (s : State) :
    (pinWrites ws s).lineTrace = s.lineTrace ++ ws := by
  induction ws generalizing s with
  | nil => simp
  | cons w ws ih => simp [ih]

/-- The three writes of one bit shift that bit into the chain, whatever the clock level before (R130, R140, R146). -/
theorem pinWrites_bitWrites (b : Bool) (s : State) :
    pinWrites (bitWrites b) s = { s with
      data := b, clk := true, sr := chainShift s.sr b
      lineTrace := s.lineTrace ++ bitWrites b } := by
  simp [bitWrites, pinWrite_data, pinWrite_clk_low, pinWrite_clk_rise]

@[simp] theorem pinWrites_counter (ws : List (Line × Bool)) (s : State) : (pinWrites ws s).counter = s.counter := by
  induction ws generalizing s with
  | nil => rfl
  | cons w ws ih => simp [ih]

@[simp] theorem pinWrites_refreshPending (ws : List (Line × Bool)) (s : State) : (pinWrites ws s).refreshPending = s.refreshPending := by
  induction ws generalizing s with
  | nil => rfl
  | cons w ws ih => simp [ih]

@[simp] theorem pinWrites_idx (ws : List (Line × Bool)) (s : State) : (pinWrites ws s).idx = s.idx := by
  induction ws generalizing s with
  | nil => rfl
  | cons w ws ih => simp [ih]

@[simp] theorem pinWrites_modeVoltage (ws : List (Line × Bool)) (s : State) : (pinWrites ws s).modeVoltage = s.modeVoltage := by
  induction ws generalizing s with
  | nil => rfl
  | cons w ws ih => simp [ih]

@[simp] theorem pinWrites_prevReset (ws : List (Line × Bool)) (s : State) : (pinWrites ws s).prevReset = s.prevReset := by
  induction ws generalizing s with
  | nil => rfl
  | cons w ws ih => simp [ih]

@[simp] theorem pinWrites_serPos (ws : List (Line × Bool)) (s : State) : (pinWrites ws s).serPos = s.serPos := by
  induction ws generalizing s with
  | nil => rfl
  | cons w ws ih => simp [ih]

@[simp] theorem pinWrites_snapDigit (ws : List (Line × Bool)) (s : State) : (pinWrites ws s).snapDigit = s.snapDigit := by
  induction ws generalizing s with
  | nil => rfl
  | cons w ws ih => simp [ih]

@[simp] theorem pinWrites_snapSeg (ws : List (Line × Bool)) (s : State) : (pinWrites ws s).snapSeg = s.snapSeg := by
  induction ws generalizing s with
  | nil => rfl
  | cons w ws ih => simp [ih]

@[simp] theorem pinWrites_snapDsel (ws : List (Line × Bool)) (s : State) : (pinWrites ws s).snapDsel = s.snapDsel := by
  induction ws generalizing s with
  | nil => rfl
  | cons w ws ih => simp [ih]

@[simp] theorem pinWrites_mainPhase (ws : List (Line × Bool)) (s : State) : (pinWrites ws s).mainPhase = s.mainPhase := by
  induction ws generalizing s with
  | nil => rfl
  | cons w ws ih => simp [ih]

@[simp] theorem pinWrites_phasePos (ws : List (Line × Bool)) (s : State) : (pinWrites ws s).phasePos = s.phasePos := by
  induction ws generalizing s with
  | nil => rfl
  | cons w ws ih => simp [ih]

@[simp] theorem pinWrites_mvRaw (ws : List (Line × Bool)) (s : State) : (pinWrites ws s).mvRaw = s.mvRaw := by
  induction ws generalizing s with
  | nil => rfl
  | cons w ws ih => simp [ih]

@[simp] theorem pinWrites_mv (ws : List (Line × Bool)) (s : State) : (pinWrites ws s).mv = s.mv := by
  induction ws generalizing s with
  | nil => rfl
  | cons w ws ih => simp [ih]

@[simp] theorem pinWrites_result (ws : List (Line × Bool)) (s : State) : (pinWrites ws s).result = s.result := by
  induction ws generalizing s with
  | nil => rfl
  | cons w ws ih => simp [ih]

@[simp] theorem pinWrites_btnReset (ws : List (Line × Bool)) (s : State) : (pinWrites ws s).btnReset = s.btnReset := by
  induction ws generalizing s with
  | nil => rfl
  | cons w ws ih => simp [ih]

@[simp] theorem pinWrites_btnMode (ws : List (Line × Bool)) (s : State) : (pinWrites ws s).btnMode = s.btnMode := by
  induction ws generalizing s with
  | nil => rfl
  | cons w ws ih => simp [ih]

@[simp] theorem pinWrites_pot (ws : List (Line × Bool)) (s : State) : (pinWrites ws s).pot = s.pot := by
  induction ws generalizing s with
  | nil => rfl
  | cons w ws ih => simp [ih]

@[simp] theorem pinWrites_trace (ws : List (Line × Bool)) (s : State) : (pinWrites ws s).trace = s.trace := by
  induction ws generalizing s with
  | nil => rfl
  | cons w ws ih => simp [ih]

@[simp] theorem pinWrites_freeDraws (ws : List (Line × Bool)) (s : State) : (pinWrites ws s).freeDraws = s.freeDraws := by
  induction ws generalizing s with
  | nil => rfl
  | cons w ws ih => simp [ih]

end Sys2Proof.Machine
end

