-- ==== Sys2Proof/Laws/Sequencer.lean ====
section
/-! SUPPORT. What one step of MAIN and one step of the system can be, said once; the operations that only ever complete. -/

namespace Sys2Proof.Machine

/-- The meanings of this machine are those of its configuration. -/
theorem execWith_config : execWith config = exec := by
  funext i s
  cases i <;> rfl

/-- The step of this machine is that of its configuration. -/
theorem stepWith_config : stepWith config = step := by
  funext s
  rw [stepWith, execWith_config, step]

/-- A step of MAIN completes exactly when it selects an operation and that operation completes. -/
theorem mainStep_eq_next {run : Meaning} {s t : State} :
    mainStep s run = .next t ↔ ∃ i u, select s = some i ∧ run i s = .next u ∧ t = afterMain i u := by
  unfold mainStep
  cases h : select s with
  | none => simp
  | some i =>
    simp only [andThen_eq_next, Option.some.injEq, exists_and_left, exists_eq_left', Host.Outcome.next.injEq]
    constructor
    · rintro ⟨u, hu, rfl⟩; exact ⟨u, hu, rfl⟩
    · rintro ⟨u, hu, rfl⟩; exact ⟨u, hu, rfl⟩

/-- With an empty trace the step is MAIN's (R281). -/
theorem systemStep_of_empty {run : Meaning} {s : State} (h : s.trace = []) : systemStep s run = mainStep s run := by
  simp [systemStep, h]

/-- Otherwise it is the first event's (R59). -/
theorem systemStep_of_cons {run : Meaning} {s : State} {e : Event} {rest : List Event} (h : s.trace = e :: rest) :
    systemStep s run = runEvent e { s with trace := rest } run := by
  simp [systemStep, h]

theorem step_of_empty {s : State} (h : s.trace = []) : step s = mainStep s := systemStep_of_empty h

theorem step_of_cons {s : State} {e : Event} {rest : List Event} (h : s.trace = e :: rest) :
    step s = runEvent e { s with trace := rest } := systemStep_of_cons h

/-- Operations in sequence: those of a list put together (R59). -/
theorem execAll_append (is js : List Instr) (s : State) : execAll (is ++ js) s = andThen (execAll is s) (execAll js) := by
  induction is generalizing s with
  | nil => rfl
  | cons i is ih =>
    rw [List.cons_append, execAll, execAll, andThen_assoc]
    exact congrArg (andThen (exec i s)) (funext ih)

/-- The next pin write inside an EMIT (R135). -/
theorem serializerOp_data (f : Word16) {k : Nat} (h : k < 16) :
    serializerOp f (1 + 3 * k) = some (.dataBit (frameBit f k)) := by
  have h1 : ¬ (1 + 3 * k = 0) := by omega
  have h2 : ¬ (1 + 3 * k = 49) := by omega
  have h3 : 1 + 3 * k < 49 := by omega
  have h4 : (1 + 3 * k) % 3 = 1 := by omega
  have h5 : (1 + 3 * k - 1) / 3 = k := by omega
  simp only [serializerOp, h1, h2, h3, h4, h5, if_true, if_false]

theorem serializerOp_low (f : Word16) {k : Nat} (h : k < 16) : serializerOp f (2 + 3 * k) = some .clkLo := by
  have h2 : ¬ (2 + 3 * k = 49) := by omega
  have h3 : 2 + 3 * k < 49 := by omega
  have h4 : (2 + 3 * k) % 3 = 2 := by omega
  simp [serializerOp, h2, h3, h4]

theorem serializerOp_high (f : Word16) {k : Nat} (h : k < 16) : serializerOp f (3 + 3 * k) = some .clkHi := by
  have h2 : ¬ (3 + 3 * k = 49) := by omega
  have h3 : 3 + 3 * k < 49 := by omega
  have h4 : (3 + 3 * k) % 3 = 0 := by omega
  simp [serializerOp, h2, h3, h4]

/-- What the serializer selects is one of the five micro-operations. -/
theorem serializerOp_cases {f : Word16} {p : Nat} {i : Instr} (h : serializerOp f p = some i) :
    (p = 0 ∧ i = .latchLo) ∨ (p = 49 ∧ i = .latchHi) ∨
    ∃ k, k < 16 ∧ ((p = 1 + 3 * k ∧ i = .dataBit (frameBit f k)) ∨
      (p = 2 + 3 * k ∧ i = .clkLo) ∨ (p = 3 + 3 * k ∧ i = .clkHi)) := by
  unfold serializerOp at h
  split at h
  · exact .inl ⟨‹_›, by simpa using h.symm⟩
  split at h
  · exact .inr (.inl ⟨‹_›, by simpa using h.symm⟩)
  split at h
  · refine .inr (.inr ⟨(p - 1) / 3, by omega, ?_⟩)
    split at h
    · exact .inl ⟨by omega, by simpa using h.symm⟩
    split at h
    · exact .inr (.inl ⟨by omega, by simpa using h.symm⟩)
    · exact .inr (.inr ⟨by omega, by simpa using h.symm⟩)
  · cases h

/-- The eight digit operations, by selector. -/
theorem decodeSel_cases (s : BitVec 3) :
    (s = 0#3 ∧ decodeSel s = .t0) ∨ (s = 1#3 ∧ decodeSel s = .t1) ∨ (s = 2#3 ∧ decodeSel s = .t2) ∨
    (s = 3#3 ∧ decodeSel s = .t3) ∨ (s = 4#3 ∧ decodeSel s = .v0) ∨ (s = 5#3 ∧ decodeSel s = .v1) ∨
    (s = 6#3 ∧ decodeSel s = .v2) ∨ (s = 7#3 ∧ decodeSel s = .v3) := by
  revert s; decide

end Sys2Proof.Machine
end

