-- ==== Sys2Proof/Laws/Main.lean ====
section
/-! SUPPORT. What MAIN's steps in COMPUTE and EMIT do, said once: the chain after sixteen bits, the pin write that `ser_pos` selects, the digit that
the multiplexer computes. -/

namespace Sys2Proof.Machine

/-- Sixteen shifts leave the two bytes in the chain, whatever it held (R138). -/
theorem chainShift_sixteen (x : Word16) (a b : Byte) :
  chainShift (chainShift (chainShift (chainShift (chainShift (chainShift (chainShift (chainShift (chainShift (chainShift (chainShift (chainShift (chainShift (chainShift (chainShift (chainShift x (a.getLsbD 7)) (a.getLsbD 6)) (a.getLsbD 5)) (a.getLsbD 4)) (a.getLsbD 3)) (a.getLsbD 2)) (a.getLsbD 1)) (a.getLsbD 0)) (b.getLsbD 7)) (b.getLsbD 6)) (b.getLsbD 5)) (b.getLsbD 4)) (b.getLsbD 3)) (b.getLsbD 2)) (b.getLsbD 1)) (b.getLsbD 0) = a ++ b := by
  apply BitVec.eq_of_getLsbD_eq
  intro i hi
  simp only [chainShift, BitVec.getLsbD_append, BitVec.getLsbD_extractLsb', BitVec.getLsbD_ofBool]
  have : i = 0 ∨ i = 1 ∨ i = 2 ∨ i = 3 ∨ i = 4 ∨ i = 5 ∨ i = 6 ∨ i = 7 ∨ i = 8 ∨ i = 9 ∨ i = 10 ∨ i = 11 ∨ i = 12 ∨ i = 13 ∨ i = 14 ∨ i = 15 := by omega
  rcases this with h|h|h|h|h|h|h|h|h|h|h|h|h|h|h|h <;> subst h <;> simp

/-- One EMIT is fifty pin writes (R135). -/
theorem emitWrites_length (a b : Byte) : (emitWrites a b).length = 50 := rfl

/-- The forty-nine writes before the latch, then the latch. -/
theorem emitWrites_eq_take_append (a b : Byte) : emitWrites a b = (emitWrites a b).take 49 ++ [(.latch, true)] := rfl

/-- Below 49 the operation that `ser_pos` selects makes exactly that write of the EMIT, moves `ser_pos` by one and MAIN not at all. -/
theorem serializerOp_makes_its_write (c : Config) (a b : Byte) (p : Nat) (h : p < 49) (s : State) (hs : s.serPos.toNat = p) :
   ∃ i, serializerOp (frameOf a b) p = some i ∧ (∀ t, afterMain i t = t) ∧
     execWith c i s = .next (setSerPos (s.serPos + 1#6) (pinWrite ((emitWrites a b)[p]'(by show p < 50; omega)).1 ((emitWrites a b)[p]'(by show p < 50; omega)).2 s)) := by
  by_cases h0 : p = 0
  · subst h0
    refine ⟨.latchLo, rfl, fun _ => rfl, ?_⟩
    have : s.serPos = 0#6 := BitVec.eq_of_toNat_eq hs
    simp [execWith, execLatchLo, this, emitWrites]
  · obtain ⟨k, hk, hp⟩ : ∃ k, k < 16 ∧ (p = 1 + 3*k ∨ p = 2+3*k ∨ p = 3+3*k) := ⟨(p-1)/3, by omega, by omega⟩
    rcases hp with rfl | rfl | rfl
    · refine ⟨_, serializerOp_data _ hk, fun _ => rfl, ?_⟩
      have hb : (emitWrites a b)[1+3*k]'(by show 1+3*k < 50; omega) = (.data, frameBit (frameOf a b) k) := by
        clear hs h h0
        have h16 : ∀ j, frameBit (frameOf a b) j = if 15 - j < 8 then b.getLsbD (15 - j) else a.getLsbD (15 - j - 8) := by
          intro j; simp only [frameBit, frameOf, BitVec.getLsbD_append]
        simp only [h16]
        interval_cases k <;> rfl
      rw [hb]; rfl
    · refine ⟨_, serializerOp_low _ hk, fun _ => rfl, ?_⟩
      have hb : (emitWrites a b)[2+3*k]'(by show 2+3*k < 50; omega) = (.clk, false) := by
        clear hs h h0
        interval_cases k <;> rfl
      rw [hb]; rfl
    · refine ⟨_, serializerOp_high _ hk, fun _ => rfl, ?_⟩
      have hb : (emitWrites a b)[3+3*k]'(by show 3+3*k < 50; omega) = (.clk, true) := by
        clear hs h h0
        interval_cases k <;> rfl
      rw [hb]; rfl

/-- A step of MAIN in phase EMIT before the last write. -/
theorem mainStep_emit (c : Config) {s : State} (he : s.mainPhase = .emit) (hp : s.serPos.toNat < 49) :
   mainStep s (execWith c) = .next (setSerPos (s.serPos + 1#6) (pinWrite ((emitWrites s.snapSeg s.snapDsel)[s.serPos.toNat]'(by rw [emitWrites_length]; omega)).1 ((emitWrites s.snapSeg s.snapDsel)[s.serPos.toNat]'(by rw [emitWrites_length]; omega)).2 s)) := by
  obtain ⟨i, hi, ha, hx⟩ := serializerOp_makes_its_write c s.snapSeg s.snapDsel s.serPos.toNat hp s rfl
  simp only [mainStep, select, he, hi, hx, andThen_of_next, ha]

/-- A step of MAIN at the last write of an EMIT. -/
theorem mainStep_emit_last (c : Config) {s : State} (he : s.mainPhase = .emit) (hp : s.serPos = 49#6) :
   mainStep s (execWith c) = .next (enterPhase .advance (setSerPos 0#6 (pinWrite .latch true s))) := by
  simp [mainStep, select, he, hp, serializerOp, execWith, execLatchHi, afterMain]

/-- A segment lookup that completes writes `result` and nothing else. -/
theorem returnSeg_eq_next {c d} {s t : State} (h : returnSeg c d s = .next t) : ∃ p, t = { s with result := p } := by
  unfold returnSeg at h; split at h
  · cases h; exact ⟨_, rfl⟩
  · cases h

/-- MAIN's move past an operation leaves the events ahead alone. -/
theorem afterMain_trace (i : Instr) (t : State) : (afterMain i t).trace = t.trace := by cases i <;> rfl

/-- The four positions. -/
theorem idx_cases (x : BitVec 2) : x = 0#2 ∨ x = 1#2 ∨ x = 2#2 ∨ x = 3#2 := by
  revert x; decide

/-- In time mode the operation the selector picks is the one COMPUTE runs, and MAIN enters EMIT after it. -/
theorem execWith_selected_time (c : Config) {s : State} (hm : s.modeVoltage = false) :
    execWith c (decodeSel (selectorOf s)) s = computeTime s c ∧
      ∀ t, afterMain (decodeSel (selectorOf s)) t = enterPhase .emit t := by
  rcases idx_cases s.idx with hi | hi | hi | hi
  all_goals
    simp only [selectorOf, hm, hi, computeTime]
    exact ⟨rfl, fun _ => rfl⟩

/-- In voltage mode too, after the scaling and the clamp. -/
theorem execWith_selected_voltage (c : Config) {s : State} (hm : s.modeVoltage = true) :
    execWith c (decodeSel (selectorOf s)) s = voltageDigit s c ∧
      ∀ t, afterMain (decodeSel (selectorOf s)) t = enterPhase .emit t := by
  rcases idx_cases s.idx with hi | hi | hi | hi
  all_goals
    simp only [selectorOf, hm, hi, voltageDigit]
    exact ⟨rfl, fun _ => rfl⟩

/-- The time digits complete exactly on the legal counter values, and then show the digit of the position. -/
theorem computeTime_of_le (c : Config) {s : State} (hc : s.counter.toNat ≤ 5999) :
    ∃ d : Fin 10, d.val = digitShown false s.idx s.counter.toNat 0 ∧ computeTime s c = .next { s with
      snapDigit := BitVec.ofNat 4 d.val
      snapSeg := segPattern c d (pointForced false s.idx)
      snapDsel := encDsel c s.idx } := by
  rcases idx_cases s.idx with hi | hi | hi | hi
  · refine ⟨⟨s.counter.toNat / 60 / 10, by omega⟩, by rw [hi]; rfl, ?_⟩
    have h := showDigit_of_lt c ⟨s.counter.toNat / 60 / 10, by omega⟩ 0#2 false s
    simp only [computeTime, hi]
    exact h.trans (by simp [segPattern, pointForced, hi])
  · refine ⟨⟨s.counter.toNat / 60 % 10, by omega⟩, by rw [hi]; rfl, ?_⟩
    have h := showDigit_of_lt c ⟨s.counter.toNat / 60 % 10, by omega⟩ 1#2 true s
    simp only [computeTime, hi]
    exact h.trans (by simp [segPattern, pointForced, hi])
  · refine ⟨⟨s.counter.toNat % 60 / 10, by omega⟩, by rw [hi]; rfl, ?_⟩
    have h := showDigit_of_lt c ⟨s.counter.toNat % 60 / 10, by omega⟩ 2#2 false s
    simp only [computeTime, hi]
    exact h.trans (by simp [segPattern, pointForced, hi])
  · refine ⟨⟨s.counter.toNat % 60 % 10, by omega⟩, by rw [hi]; rfl, ?_⟩
    have h := showDigit_of_lt c ⟨s.counter.toNat % 60 % 10, by omega⟩ 3#2 false s
    simp only [computeTime, hi]
    exact h.trans (by simp [segPattern, pointForced, hi])

/-- The voltage digits complete on the clamped values, and then show the digit of the position. -/
theorem voltageDigit_of_le (c : Config) {s : State} (hm : s.mv ≤ 9999) :
    ∃ d : Fin 10, d.val = digitShown true s.idx 0 s.mv ∧ voltageDigit s c = .next { s with
      snapDigit := BitVec.ofNat 4 d.val
      snapSeg := segPattern c d (pointForced true s.idx)
      snapDsel := encDsel c s.idx } := by
  rcases idx_cases s.idx with hi | hi | hi | hi
  · refine ⟨⟨s.mv / 1000, by omega⟩, by rw [hi]; rfl, ?_⟩
    have h := showDigit_of_lt c ⟨s.mv / 1000, by omega⟩ 0#2 true s
    simp only [voltageDigit, hi]
    exact h.trans (by simp [segPattern, pointForced, hi])
  · refine ⟨⟨s.mv % 1000 / 100, by omega⟩, by rw [hi]; rfl, ?_⟩
    have h := showDigit_of_lt c ⟨s.mv % 1000 / 100, by omega⟩ 1#2 false s
    simp only [voltageDigit, hi]
    exact h.trans (by simp [segPattern, pointForced, hi])
  · refine ⟨⟨s.mv % 1000 / 10 % 10, by omega⟩, by rw [hi]; rfl, ?_⟩
    have h := showDigit_of_lt c ⟨s.mv % 1000 / 10 % 10, by omega⟩ 2#2 false s
    simp only [voltageDigit, hi]
    exact h.trans (by simp [segPattern, pointForced, hi])
  · refine ⟨⟨s.mv % 1000 % 10, by omega⟩, by rw [hi]; rfl, ?_⟩
    have h := showDigit_of_lt c ⟨s.mv % 1000 % 10, by omega⟩ 3#2 false s
    simp only [voltageDigit, hi]
    exact h.trans (by simp [segPattern, pointForced, hi])

/-- What a COMPUTE that completes leaves: the digit of the mode and the position, its patterns, and in voltage mode the two millivolt values. -/
theorem compute_eq_next {c : Config} {s t : State} (h : compute s c = .next t) :
    ∃ d : Fin 10,
      d.val = digitShown s.modeVoltage s.idx s.counter.toNat (if s.modeVoltage then clampMv c (c.scaleMv s.pot) else s.mv) ∧
      t = { s with
        mvRaw := if s.modeVoltage then c.scaleMv s.pot else s.mvRaw
        mv := if s.modeVoltage then clampMv c (c.scaleMv s.pot) else s.mv
        snapDigit := BitVec.ofNat 4 d.val
        snapSeg := segPattern c d (pointForced s.modeVoltage s.idx)
        snapDsel := encDsel c s.idx } := by
  cases hm : s.modeVoltage
  · simp only [compute, hm, Bool.false_eq_true, if_false, computeTime] at h ⊢
    rcases idx_cases s.idx with hi | hi | hi | hi <;> rw [hi] at h <;>
    · obtain ⟨d, hd, rfl⟩ := showDigit_eq_next h
      exact ⟨d, by rw [hi]; exact hd, by simp [segPattern, pointForced, hi, hm]⟩
  · simp only [compute, hm, if_true, computeVoltage, voltageDigit, execScale, execClamp, andThen_of_next] at h ⊢
    rcases idx_cases s.idx with hi | hi | hi | hi <;> rw [hi] at h <;>
    · obtain ⟨d, hd, rfl⟩ := showDigit_eq_next h
      exact ⟨d, by rw [hi]; exact hd, by simp [segPattern, pointForced, hi, hm, analogRead]⟩

/-- COMPUTE completes on the legal counter values (R177). -/
theorem compute_completes {c : Config} (hl : c.mvMax = 9999) {s : State} (hc : s.counter.toNat ≤ 5999) : ∃ t, compute s c = .next t := by
  cases hm : s.modeVoltage
  · obtain ⟨_, _, h⟩ := computeTime_of_le c hc
    exact ⟨_, by simpa [compute, hm] using h⟩
  · obtain ⟨_, _, h⟩ := voltageDigit_of_le c
      (s := { s with mvRaw := c.scaleMv s.pot, mv := clampMv c (c.scaleMv s.pot) }) (hl ▸ clampMv_le c _)
    exact ⟨_, by simpa [compute, hm, computeVoltage, execScale, execClamp, analogRead] using h⟩

/-- A step of MAIN in phase COMPUTE: the scaling, the clamp, or the digit. -/
theorem mainStep_scale (c : Config) {s : State} (hp : s.mainPhase = .compute) (hm : s.modeVoltage = true) (h : s.phasePos = 0#2) :
    mainStep s (execWith c) = .next { s with mvRaw := c.scaleMv s.pot, phasePos := 1#2 } := by
  simp [mainStep, select, hp, hm, h, execWith, execScale, afterMain, analogRead]

theorem mainStep_clamp (c : Config) {s : State} (hp : s.mainPhase = .compute) (hm : s.modeVoltage = true) (h : s.phasePos = 1#2) :
    mainStep s (execWith c) = .next { s with mv := clampMv c s.mvRaw, phasePos := 2#2 } := by
  simp [mainStep, select, hp, hm, h, execWith, execClamp, afterMain]

theorem mainStep_time (c : Config) {s : State} (hp : s.mainPhase = .compute) (hm : s.modeVoltage = false) :
    mainStep s (execWith c) = andThen (computeTime s c) fun t => .next (enterPhase .emit t) := by
  have hs : select s = some (decodeSel (selectorOf s)) := by simp [select, hp, hm]
  have := execWith_selected_time c hm
  simp only [mainStep, hs, this.1, this.2]

theorem mainStep_voltage (c : Config) {s : State} (hp : s.mainPhase = .compute) (hm : s.modeVoltage = true)
    (h0 : s.phasePos ≠ 0#2) (h1 : s.phasePos ≠ 1#2) :
    mainStep s (execWith c) = andThen (voltageDigit s c) fun t => .next (enterPhase .emit t) := by
  have hs : select s = some (decodeSel (selectorOf s)) := by simp [select, hp, h0, h1]
  have := execWith_selected_voltage c hm
  simp only [mainStep, hs, this.1, this.2]

/-- A step of MAIN in phases SAMPLE, GATE and ADVANCE. -/
theorem mainStep_sampleReset (c : Config) {s : State} (hp : s.mainPhase = .sample) (h : s.phasePos = 0#2) :
    mainStep s (execWith c) = .next { s with
      counter := if s.prevReset && !s.btnReset then 0#13 else s.counter
      prevReset := s.btnReset
      phasePos := 1#2 } := by
  simp [mainStep, select, hp, h, execWith, execSampleReset, afterMain, readResetButton]

theorem mainStep_sampleMode (c : Config) {s : State} (hp : s.mainPhase = .sample) (h : s.phasePos ≠ 0#2) :
    mainStep s (execWith c) = .next { s with modeVoltage := !s.btnMode, mainPhase := .gate, phasePos := 0#2 } := by
  simp [mainStep, select, hp, h, execWith, execSampleMode, afterMain, readModeButton, enterPhase, setModeFromLevel]

theorem mainStep_gate (c : Config) {s : State} (hp : s.mainPhase = .gate) :
    mainStep s (execWith c) = .next { s with
      refreshPending := false
      mainPhase := if s.refreshPending then .compute else .sample
      phasePos := 0#2 } := by
  cases hr : s.refreshPending <;>
    simp [mainStep, select, hp, hr, execWith, execGate, afterMain, enterPhase, clearRefreshPending]

theorem mainStep_advance (c : Config) {s : State} (hp : s.mainPhase = .advance) :
    mainStep s (execWith c) = .next { s with idx := s.idx + 1#2, mainPhase := .sample, phasePos := 0#2 } := by
  simp [mainStep, select, hp, execWith, execIdxAdv, afterMain, enterPhase]

/-- MAIN always has a step in the legal ranges (R281), which keeps the ranges, its place and the events ahead. -/
theorem mainStep_completes {c : Config} (hl : c.mvMax = 9999) {s : State} (hr : InRange s) (hp : PhaseOk s) :
    ∃ t, mainStep s (execWith c) = .next t ∧ InRange t ∧ PhaseOk t ∧ t.trace = s.trace := by
  obtain ⟨hcnt, hmv, hser, hpot⟩ := hr
  unfold PhaseOk at hp
  split at hp
  next hs =>
    obtain ⟨hpos, h0⟩ := hp
    by_cases hz : s.phasePos = 0#2
    · refine ⟨_, mainStep_sampleReset c hs hz, ⟨?_, hmv, hser, hpot⟩, ?_, rfl⟩
      · dsimp only; split
        · exact Nat.zero_le _
        · exact hcnt
      · simp [PhaseOk, hs, h0]
    · exact ⟨_, mainStep_sampleMode c hs hz, ⟨hcnt, hmv, hser, hpot⟩, by simp [PhaseOk, h0], rfl⟩
  next hs =>
    refine ⟨_, mainStep_gate c hs, ⟨hcnt, hmv, hser, hpot⟩, ?_, rfl⟩
    cases hpend : s.refreshPending <;> simp [PhaseOk, hp.2]
  next hs =>
    obtain ⟨hpos, hmode, h0⟩ := hp
    cases hm : s.modeVoltage
    · obtain ⟨d, _, hd⟩ := computeTime_of_le c hcnt
      have h := mainStep_time c hs hm
      rw [hd, andThen_of_next] at h
      exact ⟨_, h, ⟨hcnt, hmv, hser, hpot⟩, rfl, rfl⟩
    · by_cases hz : s.phasePos = 0#2
      · exact ⟨_, mainStep_scale c hs hm hz, ⟨hcnt, hmv, hser, hpot⟩, by simp [PhaseOk, hs, h0, hm], rfl⟩
      · by_cases ho : s.phasePos = 1#2
        · exact ⟨_, mainStep_clamp c hs hm ho, ⟨hcnt, hl ▸ clampMv_le c _, hser, hpot⟩, by simp [PhaseOk, hs, h0, hm], rfl⟩
        · obtain ⟨d, _, hd⟩ := voltageDigit_of_le c hmv
          have h := mainStep_voltage c hs hm hz ho
          rw [hd, andThen_of_next] at h
          exact ⟨_, h, ⟨hcnt, hmv, hser, hpot⟩, rfl, rfl⟩
  next hs =>
    by_cases hlt : s.serPos.toNat < 49
    · refine ⟨_, mainStep_emit c hs hlt, ⟨?_, ?_, ?_, ?_⟩, ?_, ?_⟩
      · simpa using hcnt
      · simpa using hmv
      · simp only [setSerPos_serPos]; bv_omega
      · simpa using hpot
      · simp [PhaseOk, hs, hp]
      · simp
    · have h49 : s.serPos = 49#6 := by bv_omega
      refine ⟨_, mainStep_emit_last c hs h49, ⟨?_, ?_, ?_, ?_⟩, ?_, ?_⟩
      · simpa using hcnt
      · simpa using hmv
      · simp
      · simpa using hpot
      · simp [PhaseOk]
      · simp
  next hs =>
    exact ⟨_, mainStep_advance c hs, ⟨hcnt, hmv, hser, hpot⟩, by simp [PhaseOk, hp.2], rfl⟩

end Sys2Proof.Machine
end

