-- ==== Sys2Proof/Laws/PerInstr.lean ====
section
/-! SUPPORT. Statements made per instruction. -/

/-- Family `EncodedLength`: an operation's encoding has as many bytes as its format takes (R70): none for EVT, two for FRAME, one otherwise. -/
def Sys2Proof.Laws.EncodedLength.Statement (i : Sys2Proof.Instr) : Prop :=
  (Sys2Proof.encode i).2.length = (i.format.bits + 7) / 8

namespace Sys2Proof.Laws.EncodedLength

theorem seg0 : Statement (.seg0) := by simp [Statement, encode, encodeBytes, Instr.format, Format.bits]
theorem seg1 : Statement (.seg1) := by simp [Statement, encode, encodeBytes, Instr.format, Format.bits]
theorem seg2 : Statement (.seg2) := by simp [Statement, encode, encodeBytes, Instr.format, Format.bits]
theorem seg3 : Statement (.seg3) := by simp [Statement, encode, encodeBytes, Instr.format, Format.bits]
theorem seg4 : Statement (.seg4) := by simp [Statement, encode, encodeBytes, Instr.format, Format.bits]
theorem seg5 : Statement (.seg5) := by simp [Statement, encode, encodeBytes, Instr.format, Format.bits]
theorem seg6 : Statement (.seg6) := by simp [Statement, encode, encodeBytes, Instr.format, Format.bits]
theorem seg7 : Statement (.seg7) := by simp [Statement, encode, encodeBytes, Instr.format, Format.bits]
theorem seg8 : Statement (.seg8) := by simp [Statement, encode, encodeBytes, Instr.format, Format.bits]
theorem seg9 : Statement (.seg9) := by simp [Statement, encode, encodeBytes, Instr.format, Format.bits]
theorem dcodeReserved10_11 (d : BitVec 4) : Statement (.dcodeReserved10_11 d) := by simp [Statement, encode, encodeBytes, Instr.format, Format.bits]
theorem dcodeReserved12_15 (d : BitVec 4) : Statement (.dcodeReserved12_15 d) := by simp [Statement, encode, encodeBytes, Instr.format, Format.bits]
theorem forceDp (p : Byte) : Statement (.forceDp p) := by simp [Statement, encode, encodeBytes, Instr.format, Format.bits]
theorem dsel0 : Statement (.dsel0) := by simp [Statement, encode, encodeBytes, Instr.format, Format.bits]
theorem dsel1 : Statement (.dsel1) := by simp [Statement, encode, encodeBytes, Instr.format, Format.bits]
theorem dsel2 : Statement (.dsel2) := by simp [Statement, encode, encodeBytes, Instr.format, Format.bits]
theorem dsel3 : Statement (.dsel3) := by simp [Statement, encode, encodeBytes, Instr.format, Format.bits]
theorem emit (segments digitSelect : Byte) : Statement (.emit segments digitSelect) := by simp [Statement, encode, encodeBytes, Instr.format, Format.bits]
theorem latchLo : Statement (.latchLo) := by simp [Statement, encode, encodeBytes, Instr.format, Format.bits]
theorem dataBit (b : Bool) : Statement (.dataBit b) := by simp [Statement, encode, encodeBytes, Instr.format, Format.bits]
theorem clkLo : Statement (.clkLo) := by simp [Statement, encode, encodeBytes, Instr.format, Format.bits]
theorem clkHi : Statement (.clkHi) := by simp [Statement, encode, encodeBytes, Instr.format, Format.bits]
theorem latchHi : Statement (.latchHi) := by simp [Statement, encode, encodeBytes, Instr.format, Format.bits]
theorem gate : Statement (.gate) := by simp [Statement, encode, encodeBytes, Instr.format, Format.bits]
theorem t0 : Statement (.t0) := by simp [Statement, encode, encodeBytes, Instr.format, Format.bits]
theorem t1 : Statement (.t1) := by simp [Statement, encode, encodeBytes, Instr.format, Format.bits]
theorem t2 : Statement (.t2) := by simp [Statement, encode, encodeBytes, Instr.format, Format.bits]
theorem t3 : Statement (.t3) := by simp [Statement, encode, encodeBytes, Instr.format, Format.bits]
theorem v0 : Statement (.v0) := by simp [Statement, encode, encodeBytes, Instr.format, Format.bits]
theorem v1 : Statement (.v1) := by simp [Statement, encode, encodeBytes, Instr.format, Format.bits]
theorem v2 : Statement (.v2) := by simp [Statement, encode, encodeBytes, Instr.format, Format.bits]
theorem v3 : Statement (.v3) := by simp [Statement, encode, encodeBytes, Instr.format, Format.bits]
theorem idxAdv : Statement (.idxAdv) := by simp [Statement, encode, encodeBytes, Instr.format, Format.bits]
theorem refresh : Statement (.refresh) := by simp [Statement, encode, encodeBytes, Instr.format, Format.bits]
theorem tick1s : Statement (.tick1s) := by simp [Statement, encode, encodeBytes, Instr.format, Format.bits]
theorem tick2ms : Statement (.tick2ms) := by simp [Statement, encode, encodeBytes, Instr.format, Format.bits]
theorem sampleReset : Statement (.sampleReset) := by simp [Statement, encode, encodeBytes, Instr.format, Format.bits]
theorem sampleMode : Statement (.sampleMode) := by simp [Statement, encode, encodeBytes, Instr.format, Format.bits]
theorem scale : Statement (.scale) := by simp [Statement, encode, encodeBytes, Instr.format, Format.bits]
theorem clamp : Statement (.clamp) := by simp [Statement, encode, encodeBytes, Instr.format, Format.bits]
theorem por : Statement (.por) := by simp [Statement, encode, encodeBytes, Instr.format, Format.bits]

end Sys2Proof.Laws.EncodedLength
end

