-- ==== Sys2Proof/Tests/Slice0.lean ====
section
/-! SUPPORT. The model's own tests. Expected results are from spec/30_encoding.md (words), spec/95_test_vectors.md (vectors) and hand calculation
from the rules; and, for each statement with hypotheses, a named witness that meets them. -/

namespace Sys2Proof.Tests

open Sys2Proof Sys2Proof.Machine

/-! ### Helpers -/

/-- The outcome is a next state with the property `p`. -/
def holds (o : Outcome) (p : State → Bool) : Bool :=
  match o with
  | .next t => p t
  | .fault _ => false
  | .refused _ => false

/-- The frame that a digit operation has prepared. -/
def prepared (s : State) : Word16 := frameOf s.snapSeg s.snapDsel

/-- After reset, the counter at `n`. -/
def counting (n : Nat) : State := { State.reset with counter := BitVec.ofNat 13 n }

/-- After reset, in voltage mode, the clamped millivolt value at `n`. -/
def measuring (n : Nat) : State := { State.reset with modeVoltage := true, mv := n }

/-- After reset, MAIN in phase EMIT with the frame 24F2 to send and `p` of its pin writes done. -/
def sending (p : Nat) : State :=
  { State.reset with mainPhase := .emit, snapSeg := 0x24#8, snapDsel := 0xF2#8, serPos := BitVec.ofNat 6 p }

/-- The four cases of the reset button, the counter at 754 (95_test_vectors.md section 2.6). -/
def button (prev cur : Bool) : State := { counting 754 with prevReset := prev, btnReset := cur }

/-- After reset, one event ahead. -/
def ahead (e : Event) : State := { State.reset with trace := [e] }

/-! ### Well-formedness -/

theorem test_wf_reserved10_11_refuses_ill_formed : (Instr.dcodeReserved10_11 3#4).wf = false := by decide

theorem test_wf_reserved12_15_refuses_ill_formed : (Instr.dcodeReserved12_15 11#4).wf = false := by decide

theorem test_wf_reserved_accepts : (Instr.dcodeReserved10_11 11#4).wf = true ∧ (Instr.dcodeReserved12_15 12#4).wf = true := by decide

/-! ### Decoding: words written out from R74 to R77, R83, R84 -/

theorem test_decode_seg0_to_seg4 :
    decode .dcode [0b00000000#8] = .ok .seg0 ∧ decode .dcode [0b00000001#8] = .ok .seg1 ∧
    decode .dcode [0b00000010#8] = .ok .seg2 ∧ decode .dcode [0b00000011#8] = .ok .seg3 ∧
    decode .dcode [0b00000100#8] = .ok .seg4 := ⟨rfl, rfl, rfl, rfl, rfl⟩

theorem test_decode_seg5_to_seg9 :
    decode .dcode [0b00000101#8] = .ok .seg5 ∧ decode .dcode [0b00000110#8] = .ok .seg6 ∧
    decode .dcode [0b00000111#8] = .ok .seg7 ∧ decode .dcode [0b00001000#8] = .ok .seg8 ∧
    decode .dcode [0b00001001#8] = .ok .seg9 := ⟨rfl, rfl, rfl, rfl, rfl⟩

theorem test_decode_reserved :
    decode .dcode [0b00001010#8] = .ok (.dcodeReserved10_11 0b1010#4) ∧
    decode .dcode [0b00001011#8] = .ok (.dcodeReserved10_11 0b1011#4) ∧
    decode .dcode [0b00001100#8] = .ok (.dcodeReserved12_15 0b1100#4) ∧
    decode .dcode [0b00001111#8] = .ok (.dcodeReserved12_15 0b1111#4) := ⟨rfl, rfl, rfl, rfl⟩

theorem test_decode_dsel :
    decode .pos [0b00000000#8] = .ok .dsel0 ∧ decode .pos [0b00000001#8] = .ok .dsel1 ∧
    decode .pos [0b00000010#8] = .ok .dsel2 ∧ decode .pos [0b00000011#8] = .ok .dsel3 := ⟨rfl, rfl, rfl, rfl⟩

theorem test_decode_time :
    decode .sel [0b00000000#8] = .ok .t0 ∧ decode .sel [0b00000001#8] = .ok .t1 ∧
    decode .sel [0b00000010#8] = .ok .t2 ∧ decode .sel [0b00000011#8] = .ok .t3 := ⟨rfl, rfl, rfl, rfl⟩

theorem test_decode_voltage :
    decode .sel [0b00000100#8] = .ok .v0 ∧ decode .sel [0b00000101#8] = .ok .v1 ∧
    decode .sel [0b00000110#8] = .ok .v2 ∧ decode .sel [0b00000111#8] = .ok .v3 := ⟨rfl, rfl, rfl, rfl⟩

theorem test_decode_frame : decode .frame [0b00100100#8, 0b11110010#8] = .ok (.emit 0x24#8 0xF2#8) := rfl

theorem test_decode_refuses :
    decode .pos [0b00000100#8] = .error .bitsAboveFormat ∧ decode .sel [0b00001000#8] = .error .bitsAboveFormat ∧
    decode .dcode [0b00010000#8] = .error .bitsAboveFormat ∧ decode .frame [0x24#8] = .error .wrongLength ∧
    decode .segp [0xA4#8] = .error .patternNotOperation ∧ decode .evt [] = .error .noBitPattern :=
  ⟨rfl, rfl, rfl, rfl, rfl, rfl⟩

theorem test_table_words :
    decodeTableWord 4 0b0111 = some .seg7 ∧ decodeTableWord 2 0b11 = some .dsel3 ∧ decodeTableWord 3 0b110 = some .v2 ∧
    decodeTableWord 16 0x24F2 = some (.emit 0x24#8 0xF2#8) ∧ decodeTableWord 8 0b1001 = some .seg9 := ⟨rfl, rfl, rfl, rfl, rfl⟩

/-! ### Selection of the operations without bits (R79, R135) -/

theorem test_select_phases :
    select State.reset = some .sampleReset ∧ select { State.reset with phasePos := 1#2 } = some .sampleMode ∧
    select { State.reset with mainPhase := .gate } = some .gate ∧
    select { State.reset with mainPhase := .advance } = some .idxAdv := by decide

theorem test_select_compute :
    select { measuring 0 with mainPhase := .compute } = some .scale ∧
    select { measuring 0 with mainPhase := .compute, phasePos := 1#2 } = some .clamp ∧
    select { measuring 0 with mainPhase := .compute, phasePos := 2#2, idx := 3#2 } = some .v3 ∧
    select { State.reset with mainPhase := .compute, idx := 2#2 } = some .t2 := by decide

theorem test_select_emit :
    select (sending 0) = some .latchLo ∧ select (sending 1) = some (.dataBit false) ∧ select (sending 2) = some .clkLo ∧
    select (sending 3) = some .clkHi ∧ select (sending 7) = some (.dataBit true) ∧ select (sending 46) = some (.dataBit false) ∧
    select (sending 48) = some .clkHi ∧ select (sending 49) = some .latchHi ∧ select (sending 50) = none := by decide

/-! ### Segment Encoder (95_test_vectors.md section 2.1) -/

theorem test_segments :
    holds (exec .seg0 State.reset) (·.result == 0xC0#8) ∧ holds (exec .seg1 State.reset) (·.result == 0xF9#8) ∧
    holds (exec .seg2 State.reset) (·.result == 0xA4#8) ∧ holds (exec .seg3 State.reset) (·.result == 0xB0#8) ∧
    holds (exec .seg4 State.reset) (·.result == 0x99#8) ∧ holds (exec .seg5 State.reset) (·.result == 0x92#8) ∧
    holds (exec .seg6 State.reset) (·.result == 0x82#8) ∧ holds (exec .seg7 State.reset) (·.result == 0xF8#8) ∧
    holds (exec .seg8 State.reset) (·.result == 0x80#8) ∧ holds (exec .seg9 State.reset) (·.result == 0x90#8) := by decide

theorem test_digit_selects :
    holds (exec .dsel0 State.reset) (·.result == 0xF1#8) ∧ holds (exec .dsel1 State.reset) (·.result == 0xF2#8) ∧
    holds (exec .dsel2 State.reset) (·.result == 0xF4#8) ∧ holds (exec .dsel3 State.reset) (·.result == 0xF8#8) := by decide

theorem test_force_dp :
    holds (exec (.forceDp 0xA4#8) State.reset) (·.result == 0x24#8) ∧ holds (exec (.forceDp 0xFF#8) State.reset) (·.result == 0x7F#8) ∧
    holds (exec (.forceDp 0x00#8) State.reset) (·.result == 0x00#8) := by decide

theorem test_reserved_codes_fault :
    exec (.dcodeReserved10_11 11#4) State.reset = .fault (.lutIndexFault .seg 11) ∧
    exec (.dcodeReserved12_15 15#4) State.reset = .fault (.lutIndexFault .seg 15) := ⟨rfl, rfl⟩

/-! ### Shift-Register Driver (95_test_vectors.md section 2.2) -/

theorem test_emit_24F2 :
    holds (exec (.emit 0x24#8 0xF2#8) { State.reset with sr := 0xABCD#16, out := 0xABCD#16 }) (fun t =>
      t.sr == 0x24F2#16 && t.out == 0x24F2#16 && !t.data && t.clk && t.latch && t.serPos == 0#6 &&
      t.lineTrace.length == 50 && t.frameTrace == [0x24F2#16]) = true := by decide +kernel

theorem test_emit_from_high_lines :
    holds (exec (.emit 0xFF#8 0xFF#8) { State.reset with clk := true, latch := true }) (fun t =>
      t.out == 0xFFFF#16 && t.data && t.frameTrace == [0xFFFF#16]) = true := by decide +kernel

theorem test_first_pulse_shifts :
    holds (exec .clkHi { sending 3 with sr := 0xABCD#16, out := 0xABCD#16 }) (fun t =>
      t.sr == 0x579A#16 && t.out == 0xABCD#16 && t.clk && t.serPos == 4#6) = true := by decide

theorem test_second_pulse_needs_an_edge :
    holds (exec .clkHi { sending 3 with sr := 0xABCD#16, clk := true }) (fun t => t.sr == 0xABCD#16 && t.serPos == 4#6) = true := by decide

theorem test_latch_hi_commits :
    holds (exec .latchHi { sending 49 with sr := 0x24F2#16, out := 0xABCD#16 }) (fun t =>
      t.out == 0x24F2#16 && t.frameTrace == [0x24F2#16] && t.serPos == 0#6) = true := by decide

theorem test_latch_lo_and_data_and_clk_lo :
    holds (exec .latchLo { sending 0 with latch := true }) (fun t => !t.latch && t.serPos == 1#6 && t.lineTrace == [(.latch, false)]) ∧
    holds (exec (.dataBit true) (sending 7)) (fun t => t.data && t.serPos == 8#6 && t.lineTrace == [(.data, true)]) ∧
    holds (exec .clkLo { sending 8 with clk := true }) (fun t => !t.clk && t.serPos == 9#6 && t.sr == 0#16) := by decide

/-! ### Display Multiplexer (95_test_vectors.md sections 2.3 to 2.5) -/

theorem test_time_at_754 :
    holds (exec .t0 (counting 754)) (prepared · == 0xF9F1#16) ∧ holds (exec .t1 (counting 754)) (prepared · == 0x24F2#16) ∧
    holds (exec .t2 (counting 754)) (prepared · == 0xB0F4#16) ∧ holds (exec .t3 (counting 754)) (prepared · == 0x99F8#16) := by decide

theorem test_time_at_5999 :
    holds (exec .t0 (counting 5999)) (prepared · == 0x90F1#16) ∧ holds (exec .t1 (counting 5999)) (prepared · == 0x10F2#16) ∧
    holds (exec .t2 (counting 5999)) (prepared · == 0x92F4#16) ∧ holds (exec .t3 (counting 5999)) (prepared · == 0x90F8#16) := by decide

theorem test_voltage_at_1234 :
    holds (exec .v0 (measuring 1234)) (prepared · == 0x79F1#16) ∧ holds (exec .v1 (measuring 1234)) (prepared · == 0xA4F2#16) ∧
    holds (exec .v2 (measuring 1234)) (prepared · == 0xB0F4#16) ∧ holds (exec .v3 (measuring 1234)) (prepared · == 0x99F8#16) := by decide

theorem test_voltage_at_5078 :
    holds (exec .v0 (measuring 5078)) (prepared · == 0x12F1#16) ∧ holds (exec .v1 (measuring 5078)) (prepared · == 0xC0F2#16) ∧
    holds (exec .v2 (measuring 5078)) (prepared · == 0xF8F4#16) ∧ holds (exec .v3 (measuring 5078)) (prepared · == 0x80F8#16) := by decide

theorem test_gate_with_and_without_the_flag :
    holds (exec .gate { State.reset with refreshPending := true, mainPhase := .gate }) (fun t => !t.refreshPending && t.mainPhase == .compute) ∧
    holds (exec .gate { State.reset with mainPhase := .gate }) (fun t => !t.refreshPending && t.mainPhase == .sample) := by decide

theorem test_idx_adv_wraps :
    holds (exec .idxAdv { State.reset with idx := 3#2, mainPhase := .advance }) (fun t => t.idx == 0#2 && t.mainPhase == .sample) = true := by decide

theorem test_refresh_time_125_position_1 :
    holds (exec .refresh { counting 125 with idx := 1#2 }) (fun t => t.frameTrace == [0x24F2#16] && t.idx == 2#2) = true := by decide +kernel

theorem test_refresh_voltage_full_scale :
    holds (exec .refresh { measuring 0 with pot := ⟨1, 1⟩ }) (fun t => t.frameTrace == [0x30F1#16] && t.mv == 3300) = true := by decide +kernel

/-! ### Context blocks (95_test_vectors.md section 2.6) -/

theorem test_tick1s_counts_and_wraps :
    holds (exec .tick1s (counting 5998)) (·.counter == 5999#13) ∧ holds (exec .tick1s (counting 5999)) (·.counter == 0#13) ∧
    holds (exec .tick1s (counting 8191)) (·.counter == 0#13) := by decide

theorem test_tick2ms_sets_the_flag : holds (exec .tick2ms State.reset) (fun t => t.refreshPending) = true := by decide

theorem test_sample_reset_edge_and_release :
    holds (exec .sampleReset (button true false)) (fun t => t.counter == 0#13 && !t.prevReset) ∧
    holds (exec .sampleReset (button false true)) (fun t => t.counter == 754#13 && t.prevReset) := by decide

theorem test_sample_reset_held_and_idle :
    holds (exec .sampleReset (button false false)) (fun t => t.counter == 754#13 && !t.prevReset) ∧
    holds (exec .sampleReset (button true true)) (fun t => t.counter == 754#13 && t.prevReset) := by decide

theorem test_sample_mode :
    holds (exec .sampleMode { State.reset with btnMode := false }) (fun t => t.modeVoltage && t.mainPhase == .gate) ∧
    holds (exec .sampleMode (measuring 0)) (fun t => !t.modeVoltage) := by decide

theorem test_scale :
    holds (exec .scale { State.reset with pot := ⟨999, 1000⟩ }) (·.mvRaw == 3296) ∧
    holds (exec .scale { State.reset with pot := ⟨1, 3301⟩ }) (·.mvRaw == 0) ∧
    holds (exec .scale { State.reset with pot := ⟨1, 3300⟩ }) (·.mvRaw == 1) := by decide

theorem test_clamp :
    holds (exec .clamp { State.reset with mvRaw := 12000 }) (·.mv == 9999) ∧
    holds (exec .clamp { State.reset with mvRaw := 9998 }) (·.mv == 9998) := by decide

/-! ### Power-on and whole steps -/

theorem test_por_clears : ∃ t, exec .por { counting 754 with idx := 2#2, latch := true, frameTrace := [0xC0F1#16] } = .next t ∧
    t.counter = 0#13 ∧ t.idx = 0#2 ∧ t.latch = false ∧ t.frameTrace = [] := ⟨_, rfl, rfl, rfl, rfl, rfl⟩

/-- P5 of 95_test_vectors.md: the first frame after reset. -/
theorem test_first_loop_after_a_tick :
    holds (step { ahead .loop with refreshPending := true }) (fun t =>
      t.frameTrace == [0xC0F1#16] && t.out == 0xC0F1#16 && t.sr == 0xC0F1#16 && t.data && t.clk && t.latch &&
      t.idx == 1#2 && !t.refreshPending && t.lineTrace.length == 50) = true := by decide +kernel

/-- The voltage frame of P4 of 95_test_vectors.md: 1.650, position 2. -/
theorem test_loop_voltage_half_scale :
    holds (step { ahead .loop with refreshPending := true, btnMode := false, pot := ⟨1, 2⟩, idx := 2#2 }) (fun t =>
      t.frameTrace == [0x92F4#16] && t.idx == 3#2 && t.modeVoltage) = true := by decide +kernel

theorem test_ratio_above_one_refused : step (ahead (.pot ⟨40, 11⟩)) = .refused .potOutOfRange := rfl

theorem test_undecodable_word_refused : step (ahead (.word .evt [])) = .refused (.undecodable .noBitPattern) := rfl

theorem test_no_pin_write_above_49 : step (sending 50) = .refused .serPosOutOfRange := rfl

theorem test_word_runs_after_reset : step (State.reset.withFetchWord 8 0b0101) = exec .seg5 State.reset := rfl

/-! ### Witnesses: a state and operands that meet the hypotheses of each statement -/

theorem witness_decode_of_encode : (Instr.emit 0x24#8 0xF2#8).wf = true ∧ (Instr.emit 0x24#8 0xF2#8).format ≠ .evt ∧
    (Instr.dcodeReserved12_15 15#4).wf = true ∧ (Instr.dcodeReserved12_15 15#4).format ≠ .evt := by decide

theorem witness_encode_of_decode : decode .sel [0b00000111#8] = .ok .v3 := rfl

theorem witness_step_runs_the_decoded_word :
    (ahead (.word .sel [0b00000101#8])).trace = [.word .sel [0b00000101#8]] ∧ decode .sel [0b00000101#8] = .ok .v1 := ⟨rfl, rfl⟩

theorem witness_step_runs_the_table_word : decodeTableWord 16 0xC0F1 = some (.emit 0xC0#8 0xF1#8) := rfl

theorem witness_step_runs_what_main_selects :
    (State.reset.trace = [] ∧ select State.reset = some .sampleReset) ∧
    ((ahead .main).trace = [.main] ∧ select (ahead .main) = some .sampleReset) := ⟨⟨rfl, rfl⟩, rfl, rfl⟩

theorem witness_step_runs_timer_and_power_events :
    (ahead .tick1s).trace = [.tick1s] ∧ (ahead .tick2ms).trace = [.tick2ms] ∧ (ahead .por).trace = [.por] := ⟨rfl, rfl, rfl⟩

theorem witness_environment_sets_only_its_inputs :
    (ahead (.btnReset false)).trace = [.btnReset false] ∧ (ahead (.btnMode false)).trace = [.btnMode false] ∧
    ((ahead (.pot ⟨1, 1⟩)).trace = [.pot ⟨1, 1⟩] ∧ 0 < (1 : Nat) ∧ (1 : Nat) ≤ 1) ∧
    ((ahead (.pot ⟨0, 1⟩)).trace = [.pot ⟨0, 1⟩] ∧ 0 < (1 : Nat) ∧ (0 : Nat) ≤ 1) ∧
    ((ahead (.pot ⟨2, 1⟩)).trace = [.pot ⟨2, 1⟩] ∧ (1 : Nat) < 2) ∧ (ahead (.pot ⟨0, 0⟩)).trace = [.pot ⟨0, 0⟩] := by decide

theorem witness_force_dp_of_a_lit_pattern : (0x24#8).getLsbD 7 = false := by decide

theorem witness_pin_write_moves_the_chain :
    State.reset.clk = false ∧ State.reset.latch = false ∧ { State.reset with clk := true }.clk = true ∧
    { State.reset with latch := true }.latch = true := by decide

theorem witness_micro_operations : State.reset.serPos = 0#6 ∧ (sending 1).serPos ≠ 0#6 := by decide

theorem witness_serial_position :
    (sending 0).mainPhase = .emit ∧ (sending 0).serPos.toNat = 0 ∧ (sending 1).serPos.toNat = 1 + 3 * 0 ∧
    (sending 46).serPos.toNat = 1 + 3 * 15 ∧ (sending 2).serPos.toNat = 2 + 3 * 0 ∧ (sending 47).serPos.toNat = 2 + 3 * 15 ∧
    (sending 3).serPos.toNat = 3 + 3 * 0 ∧ (sending 48).serPos.toNat = 3 + 3 * 15 ∧ (sending 49).serPos.toNat = 49 ∧
    49 < (sending 50).serPos.toNat ∧ 49 < (sending 63).serPos.toNat := by decide

theorem witness_emit : State.reset.serPos = 0#6 := rfl

theorem witness_emit_overlap : (sending 49).serPos ≠ 0#6 := by decide

theorem witness_fifty_steps : (sending 0).mainPhase = .emit ∧ (sending 0).serPos = 0#6 ∧ (sending 0).trace = [] := by decide

/-- MAIN at the fiftieth write, by MAIN's own step: the one place where the outputs change. -/
theorem witness_outputs_change_at_the_latch :
    NextIsOneAgentStep { sending 49 with sr := 0x24F2#16 } ∧
    ∃ t, step { sending 49 with sr := 0x24F2#16 } = .next t ∧ t.out ≠ { sending 49 with sr := 0x24F2#16 }.out :=
  ⟨fun _ _ h => (List.cons_ne_nil _ _ h.symm).elim, _, rfl, by decide⟩

theorem witness_gate :
    { State.reset with mainPhase := .gate }.mainPhase = .gate ∧ { State.reset with refreshPending := true }.refreshPending = true ∧
    State.reset.refreshPending = false := by decide

theorem witness_time_operations : (counting 0).counter.toNat ≤ 5999 ∧ (counting 5999).counter.toNat ≤ 5999 := by decide

theorem witness_voltage_operations : (measuring 0).mv ≤ 9999 ∧ (measuring 9999).mv ≤ 9999 := by decide

theorem witness_leading_digit :
    5999 < (counting 6000).counter.toNat ∧ 5999 < (counting 8191).counter.toNat ∧ 9999 < (measuring 10000).mv := by decide

theorem witness_point : ∃ t, exec .t1 (counting 125) = .next t ∧ t.snapSeg.getLsbD 7 = false := ⟨_, rfl, by decide⟩

theorem witness_idx_adv :
    { State.reset with mainPhase := .advance }.mainPhase = .advance ∧ select (sending 49) = some .latchHi ∧ (sending 49).mainPhase ≠ .advance ∧
    (∃ t, mainStep (sending 49) = .next t ∧ t.mainPhase = .advance) ∧
    (∃ t, exec .idxAdv State.reset = .next t ∧ t.idx ≠ State.reset.idx) :=
  ⟨rfl, rfl, by decide, ⟨_, rfl, rfl⟩, _, rfl, by decide⟩

theorem witness_refresh :
    ((counting 5999).counter.toNat ≤ 5999 ∧ (counting 5999).serPos = 0#6 ∧ (counting 5999).modeVoltage = false) ∧
    ((measuring 0).counter.toNat ≤ 5999 ∧ (measuring 0).serPos = 0#6 ∧ (measuring 0).modeVoltage = true) := by decide

theorem witness_refresh_reads : State.reset.modeVoltage = false ∧ (measuring 0).modeVoltage = true := by decide

theorem witness_overrange : 9999 ≤ { State.reset with mvRaw := 9999 }.mvRaw ∧ 9999 ≤ { State.reset with mvRaw := 12000 }.mvRaw := by decide

theorem witness_second_tick : (counting 5999).counter.toNat ≤ 5999 ∧ 5999 < (counting 6000).counter.toNat := by decide

theorem witness_refresh_tick :
    (ahead .tick2ms).trace = [.tick2ms] ∧ { State.reset with refreshPending := true }.refreshPending = true ∧
    ∃ t, exec .tick2ms State.reset = .next t := ⟨rfl, rfl, _, rfl⟩

theorem witness_reset_button :
    (State.reset.mainPhase = .sample ∧ State.reset.phasePos = 0#2) ∧
    ((button true true).prevReset = true ∧ (button true true).btnReset = true) ∧
    ((button true false).prevReset = true ∧ (button true false).btnReset = false) ∧
    ((button false false).prevReset = false ∧ (button false false).btnReset = false) ∧
    ((button false true).prevReset = false ∧ (button false true).btnReset = true) := by decide

theorem witness_mode :
    { State.reset with phasePos := 1#2 }.mainPhase = .sample ∧ { State.reset with phasePos := 1#2 }.phasePos = 1#2 := by decide

theorem witness_mode_selects :
    (∀ k ∈ [0#2, 1#2, 2#2, 3#2], { measuring 0 with mainPhase := .compute, idx := k }.mainPhase = .compute ∧
      { measuring 0 with mainPhase := .compute, idx := k }.modeVoltage = true ∧
      { measuring 0 with mainPhase := .compute, idx := k, phasePos := 2#2 }.idx = k) ∧
    { State.reset with mainPhase := .compute }.modeVoltage = false := by decide

theorem witness_coalesce : Instr.gate ∉ [Instr.idxAdv, .tick1s, .sampleReset] ∧ Instr.por ∉ [Instr.idxAdv, .tick1s, .sampleReset] ∧
    ∃ t, execAll [.tick2ms, .idxAdv, .tick1s, .sampleReset] State.reset = .next t := ⟨by decide, by decide, _, rfl⟩

theorem witness_scale : State.reset.pot.inRange = true ∧ { State.reset with pot := ⟨1, 1⟩ }.pot.inRange = true := by decide

theorem witness_tick_and_reset_action : (button true false).prevReset = true ∧ (button true false).btnReset = false := by decide

theorem witness_owners : (∃ t, exec .tick1s State.reset = .next t ∧ t.counter ≠ State.reset.counter) ∧
    (∃ t, exec .latchHi { sending 49 with sr := 0x24F2#16 } = .next t ∧ t.out ≠ State.reset.out) ∧
    (∃ t, exec .latchLo State.reset = .next t ∧ t.serPos ≠ State.reset.serPos) ∧
    (∃ t, exec .sampleMode State.reset = .next t ∧ t.mainPhase ≠ State.reset.mainPhase) ∧
    (∃ t, exec .idxAdv State.reset = .next t ∧ t.idx ≠ State.reset.idx) ∧
    (∃ t, exec .t1 State.reset = .next t ∧ t.snapSeg ≠ State.reset.snapSeg) :=
  ⟨⟨_, rfl, by decide⟩, ⟨_, rfl, by decide⟩, ⟨_, rfl, by decide⟩, ⟨_, rfl, by decide⟩, ⟨_, rfl, by decide⟩, _, rfl, by decide⟩

theorem witness_loop_step_by_step :
    (atIterationStart State.reset = true ∧ State.reset.serPos = 0#6 ∧ State.reset.trace = [] ∧ State.reset.refreshPending = false) ∧
    (atIterationStart { State.reset with refreshPending := true, btnMode := false } = true ∧
      { State.reset with refreshPending := true, btnMode := false }.serPos = 0#6) ∧
    (atIterationStart { State.reset with refreshPending := true } = true ∧
      { State.reset with refreshPending := true }.serPos = 0#6 ∧ { State.reset with refreshPending := true }.btnMode = true) := by decide

theorem inRange_reset : InRange State.reset := by constructor <;> decide

theorem witness_loop_serves :
    InRange { ahead .loop with refreshPending := true } ∧ atIterationStart { ahead .loop with refreshPending := true } = true ∧
    { ahead .loop with refreshPending := true }.serPos = 0#6 ∧ { ahead .loop with refreshPending := true }.trace = [.loop] :=
  ⟨by constructor <;> decide, rfl, rfl, rfl⟩

theorem witness_loop_serves_in_voltage_mode :
    InRange { ahead .loop with refreshPending := true, btnMode := false, pot := ⟨1, 2⟩ } ∧
    atIterationStart { ahead .loop with refreshPending := true, btnMode := false, pot := ⟨1, 2⟩ } = true ∧
    { ahead .loop with refreshPending := true, btnMode := false, pot := ⟨1, 2⟩ }.serPos = 0#6 :=
  ⟨by constructor <;> decide, rfl, rfl⟩

theorem witness_step_keeps_the_ranges : InRange (sending 48) ∧ ∃ t, step (sending 48) = .next t :=
  ⟨by constructor <;> decide, _, rfl⟩

theorem witness_hardware_trace : ∀ e ∈ [Event.tick2ms, .loop, .pot ⟨1, 2⟩], e.ofHardware = true := by decide

theorem witness_frames_never_outrun : HardwareTrace (ahead .tick2ms) ∧ ∃ t, step (ahead .tick2ms) = .next t := by
  refine ⟨fun e he => ?_, _, rfl⟩
  simp only [ahead, List.mem_singleton] at he
  subst he
  rfl

/-- The frame C0F1 about to be latched: forty-nine writes done, all sixteen bits in the chain. -/
def aboutToLatch : State :=
  { State.reset with
    mainPhase := .emit, serPos := 49#6, snapSeg := 0xC0#8, snapDsel := 0xF1#8, sr := 0xC0F1#16, data := true, clk := true
    lineTrace := (emitWrites 0xC0#8 0xF1#8).take 49 }

theorem witness_display_invariant : DisplayInv aboutToLatch ∧ ∃ t, step aboutToLatch = .next t ∧ t.out = 0xC0F1#16 := by
  refine ⟨?_, _, rfl, rfl⟩
  constructor
  · constructor <;> decide
  · intro e he; cases he
  · rfl
  · constructor
    · intro _; rfl
    · intro _ _; decide
    · intro _ h; revert h; decide
    · decide
  · intro _; exact ⟨0, by decide, by decide⟩
  · intro h; cases h
  · intro k f h; simp [aboutToLatch, State.reset, State.resetWith] at h
  · decide
  · rfl

/-- The frame C0F1 latched, MAIN about to advance. -/
def justLatched : State :=
  { State.reset with
    mainPhase := .advance, snapSeg := 0xC0#8, snapDsel := 0xF1#8, sr := 0xC0F1#16, out := 0xC0F1#16, data := true, clk := true, latch := true
    lineTrace := emitWrites 0xC0#8 0xF1#8, frameTrace := [0xC0F1#16], trace := [.loop] }

theorem witness_display_invariant_after_a_frame : DisplayInv justLatched ∧ ∃ t, step justLatched = .next t ∧ t.idx = 1#2 := by
  refine ⟨?_, _, rfl, rfl⟩
  constructor
  · constructor <;> decide
  · intro e he; rw [List.mem_singleton.mp he]; rfl
  · exact ⟨rfl, rfl⟩
  · constructor
    · intro h; revert h; decide
    · intro h; revert h; decide
    · intro h; revert h; decide
    · decide
  · intro h; cases h
  · intro _ h; cases h
  · intro k f h
    cases k with
    | zero =>
      cases h
      exact ⟨0, false, by decide, by decide⟩
    | succ k => cases h
  · decide
  · rfl

/-- A configuration that differs from the default wherever the source leaves it open: two table entries swapped in each table, the lines high at reset, and a
coarse scaling. -/
def otherConfig : Config :=
  { config with
    segLut := #v[0xF9#8, 0xC0#8, 0xA4#8, 0xB0#8, 0x99#8, 0x92#8, 0x82#8, 0xF8#8, 0x80#8, 0x90#8]
    dselLut := #v[0x02#8, 0x01#8, 0x04#8, 0x08#8]
    scaleMv := fun r => if r.num < r.den then 0 else 3300
    pinReset := ⟨true, true, true⟩ }

theorem otherConfig_conforms : otherConfig.Conforms where
  nDigitsIs := rfl
  nCodesIs := rfl
  patternBitsIs := rfl
  frameBitsIs := rfl
  counterBitsIs := rfl
  vrefIs := rfl
  mvPerVIs := rfl
  pointOff := by decide
  segDistinct := by decide
  dselDistinct := by decide
  maskIs := rfl
  wrapIs := rfl
  mvMaxIs := rfl
  scaleZero := fun den h => if_pos h
  scaleOne := fun den _ => if_neg (Nat.lt_irrefl den)
  scaleMonotone := by
    intro a b ha hb hab
    by_cases h : b.num < b.den
    · have : a.num * b.den < a.den * b.den :=
        Nat.lt_of_le_of_lt hab (by rw [Nat.mul_comm a.den]; exact Nat.mul_lt_mul_of_pos_right h ha)
      show (if a.num < a.den then 0 else 3300) ≤ _
      rw [if_pos (Nat.lt_of_mul_lt_mul_right this)]
      exact Nat.zero_le _
    · show (if a.num < a.den then 0 else 3300) ≤ (if b.num < b.den then 0 else 3300)
      rw [if_neg h]
      split <;> decide

theorem witness_every_configuration : otherConfig.Conforms ∧
    DisplayInv { State.resetWith otherConfig with trace := [.tick2ms] } otherConfig ∧
    ∃ t, stepWith otherConfig { State.resetWith otherConfig with trace := [.tick2ms] } = .next t := by
  refine ⟨otherConfig_conforms, ?_, _, rfl⟩
  constructor
  · constructor <;> decide
  · intro e he; rw [List.mem_singleton.mp he]; rfl
  · exact ⟨by decide, rfl⟩
  · constructor
    · intro h; revert h; decide
    · intro h; revert h; decide
    · intro h; revert h; decide
    · intro j h; revert h; simp [State.resetWith, pulsesDone]
  · intro h; cases h
  · intro h; cases h
  · intro k f h; simp [State.resetWith] at h
  · decide
  · rfl

/-! A fair endless run from reset: MAIN, the second timer, the refresh timer, over and over. -/

/-- The three agents in turn. -/
def turn (n : Nat) : Event := if n % 3 = 0 then .main else if n % 3 = 1 then .tick1s else .tick2ms

/-- The states of that run. -/
def fairState (n : Nat) : State :=
  match n with
  | 0 => State.reset
  | n + 1 =>
    match step { fairState n with trace := [turn n] } with
    | .next t => t
    | .fault _ => fairState n
    | .refused _ => fairState n

theorem turn_completes (n : Nat) {s : State} (hr : InRange s) (hp : PhaseOk s) :
    ∃ t, step { s with trace := [turn n] } = .next t ∧ InRange t ∧ PhaseOk t := by
  rw [step_of_cons (e := turn n) (rest := []) rfl]
  unfold turn
  split
  · obtain ⟨t, ht, h1, h2, _⟩ := mainStep_completes (c := config) rfl (s := { s with trace := [] })
      ⟨hr.counter, hr.mv, hr.serPos, hr.pot⟩ hp
    rw [execWith_config] at ht
    exact ⟨t, ht, h1, h2⟩
  split
  · refine ⟨_, rfl, ⟨?_, hr.mv, hr.serPos, hr.pot⟩, hp⟩
    show (tickCounter config s.counter).toNat ≤ 5999
    rw [tickCounter_toNat rfl]
    split <;> omega
  · exact ⟨_, rfl, ⟨hr.counter, hr.mv, hr.serPos, hr.pot⟩, hp⟩

theorem fairState_ok (n : Nat) : InRange (fairState n) ∧ PhaseOk (fairState n) := by
  induction n with
  | zero => exact ⟨inRange_reset, by decide, rfl⟩
  | succ n ih =>
    obtain ⟨t, ht, hr, hp⟩ := turn_completes n ih.1 ih.2
    simp only [fairState, ht]
    exact ⟨hr, hp⟩

theorem fairState_begins_in_the_invariant : DisplayInv (fairState 0) := by
  constructor
  · exact inRange_reset
  · intro e he; cases he
  · exact ⟨by decide, rfl⟩
  · constructor
    · intro h; revert h; decide
    · intro h; revert h; decide
    · intro h; revert h; decide
    · decide
  · intro h; cases h
  · intro h; cases h
  · intro k f h; simp [fairState, State.reset, State.resetWith] at h
  · decide
  · rfl

theorem witness_fair_run : Execution fairState turn ∧ Fair turn ∧ DisplayInv (fairState 0) := by
  refine ⟨⟨fun n => ?_, fun n => ?_⟩, ⟨fun n => ?_, fun n => ?_, fun n => ?_⟩, fairState_begins_in_the_invariant⟩
  · unfold turn; split
    · rfl
    · split <;> rfl
  · obtain ⟨t, ht, _⟩ := turn_completes n (fairState_ok n).1 (fairState_ok n).2
    rw [ht, fairState, ht]
  · exact ⟨3 * n, by omega, by unfold turn; rw [if_pos (by omega)]⟩
  · exact ⟨3 * n + 1, by omega, by unfold turn; rw [if_neg (by omega), if_pos (by omega)]⟩
  · exact ⟨3 * n + 2, by omega, by unfold turn; rw [if_neg (by omega), if_neg (by omega)]⟩

end Sys2Proof.Tests
end

/-! ## The scope: the display invariant in every configuration, the receiver, the step of MAIN, the pin write, the configuration -/

namespace Sys2Proof.Machine

/-! ### The chain and the frame, bit by bit -/

/-- Stage 0 takes the data line, every other stage its lower neighbour (R140). -/
theorem chainShift_getLsbD (x : Word16) (b : Bool) {j : Nat} (hj : j < 16) :
    (chainShift x b).getLsbD j = if j = 0 then b else x.getLsbD (j - 1) := by
  rw [chainShift, BitVec.append_ofBool, BitVec.getLsbD_concat, BitVec.getLsbD_extractLsb', Nat.zero_add,
    decide_eq_true (show j - 1 < 15 by omega), Bool.true_and]

/-- The shift of the chain as a left shift with the data bit below (R140, D16). -/
theorem chainShift_eq_shiftLeft_or (x : Word16) (b : Bool) :
    chainShift x b = (x <<< 1) ||| (BitVec.ofBool b).setWidth 16 := by
  apply BitVec.eq_of_getLsbD_eq
  intro j hj
  rw [chainShift_getLsbD x b hj]
  cases j with
  | zero => simp
  | succ j => simp [hj, BitVec.getLsbD_eq_getElem (show j < 16 by omega)]

/-- A frame cut into its two bytes and put together again (R77). -/
theorem frameOf_extractLsb' (f : Word16) : frameOf (f.extractLsb' 8 8) (f.extractLsb' 0 8) = f :=
  BitVec.extractLsb'_append_extractLsb'

/-- The pin writes of a frame are those of the EMIT of its two bytes (R77, R130). -/
theorem frameWrites_frameOf (a b : Byte) : frameWrites (frameOf a b) = emitWrites a b := by
  rw [frameWrites, frameOf, BitVec.extractLsb'_append_eq_left, BitVec.extractLsb'_append_eq_right]

/-- A whole EMIT, from any levels and any chain contents: the frame stands in the chain and at its outputs (R138, R139). -/
theorem pinWrites_emitWrites (a b : Byte) (s : State) :
    pinWrites (emitWrites a b) s = { s with
      data := b.getLsbD 0, clk := true, latch := true, sr := frameOf a b, out := frameOf a b
      lineTrace := s.lineTrace ++ emitWrites a b
      frameTrace := s.frameTrace ++ [frameOf a b] } := by
  simp only [emitWrites, shiftByteWrites, pinWrites_append, pinWrites_bitWrites, pinWrites_cons, pinWrites_nil,
    pinWrite_latch_low, pinWrite_latch_rise, chainShift_sixteen, frameOf, List.append_assoc]

/-! ### The parts of the display invariant -/

/-- Between two EMITs: every latched frame shows a digit at its position, and the line trace is their whole blocks (R143, R178). -/
def FramesSent (c : Config) (frames : List Word16) (lines : List (Line × Bool)) : Prop :=
  (∀ k f, frames[k]? = some f → FrameShows c (BitVec.ofNat 2 k) f) ∧ lines = frames.flatMap frameWrites

theorem framesSent_nil (c : Config) : FramesSent c [] [] := ⟨fun _ _ h => by simp at h, rfl⟩

/-- One more EMIT, of a frame for the position whose turn it is. -/
theorem FramesSent.append {c : Config} {frames : List Word16} {lines : List (Line × Bool)} {a b : Byte}
    (h : FramesSent c frames lines) (hf : FrameShows c (BitVec.ofNat 2 frames.length) (frameOf a b)) :
    FramesSent c (frames ++ [frameOf a b]) (lines ++ emitWrites a b) := by
  obtain ⟨hshow, hlines⟩ := h
  refine ⟨fun k f hk => ?_, by simp [hlines, frameWrites_frameOf]⟩
  rcases Nat.lt_trichotomy k frames.length with hlt | rfl | hgt
  · exact hshow k f (by rwa [List.getElem?_append_left hlt] at hk)
  · obtain rfl : frameOf a b = f := by simpa using hk
    exact hf
  · rw [List.getElem?_eq_none (by simp; omega)] at hk
    cases hk

/-- The masked form of a digit's frame occurs only at positions 0 and 1 (R166, R170). -/
theorem frameShows_segPattern (c : Config) (d : Fin 10) (mode : Bool) (pos : BitVec 2) :
    FrameShows c pos (frameOf (segPattern c d (pointForced mode pos)) (encDsel c pos)) := by
  refine ⟨d, _, rfl, fun h => ?_⟩
  cases mode
  · exact .inr (by simpa [pointForced] using h)
  · exact .inl (by simpa [pointForced] using h)

/-- No pin write of an EMIT is made yet, so nothing is asked of the chain. -/
theorem shiftOk_of_serPos_zero {s : State} (h : s.serPos = 0#6) : ShiftOk s := by
  constructor <;> simp [h, pulsesDone]

/-- The display invariant between two EMITs, from its parts. -/
theorem displayInv_of_framesSent {c : Config} {s : State} (hr : InRange s) (hh : HardwareTrace s) (hp : PhaseOk s)
    (h0 : s.serPos = 0#6) (hf : FramesSent c s.frameTrace s.lineTrace) (hrot : s.idx = BitVec.ofNat 2 (served s))
    (hsnap : s.mainPhase = .emit →
      ∃ d : Fin 10, s.snapSeg = segPattern c d (pointForced s.modeVoltage s.idx) ∧ s.snapDsel = encDsel c s.idx)
    (hadv : s.mainPhase = .advance → s.frameTrace ≠ []) : DisplayInv s c where
  ranges := hr
  hardware := hh
  phase := hp
  shift := shiftOk_of_serPos_zero h0
  snap := hsnap
  latched := hadv
  frames := hf.1
  rotation := hrot
  lines := by simpa [h0] using hf.2

/-- Where no EMIT is in progress, the blocks sent are whole. -/
theorem DisplayInv.framesSent {c : Config} {s : State} (h : DisplayInv s c) (h0 : s.serPos = 0#6) :
    FramesSent c s.frameTrace s.lineTrace :=
  ⟨h.frames, by simpa [h0] using h.lines⟩

/-- Outside phase EMIT no EMIT is in progress (R27). -/
theorem PhaseOk.serPos_zero {s : State} (h : PhaseOk s) (he : s.mainPhase ≠ .emit) : s.serPos = 0#6 := by
  unfold PhaseOk at h
  split at h
  next => exact h.2
  next => exact h.2
  next => exact h.2.2
  next hs => exact absurd hs he
  next => exact h.2

/-- Outside phase ADVANCE the index counts the frames latched (R178). -/
theorem DisplayInv.idx_eq {c : Config} {s : State} (h : DisplayInv s c) (ha : s.mainPhase ≠ .advance) :
    s.idx = BitVec.ofNat 2 s.frameTrace.length := by
  simpa [served, ha] using h.rotation

/-- A digit shown at the current position fits the next frame's turn (R178). -/
theorem DisplayInv.next_frame_shows {c : Config} {s : State} (h : DisplayInv s c) (ha : s.mainPhase ≠ .advance) (d : Fin 10)
    (mode : Bool) : FrameShows c (BitVec.ofNat 2 s.frameTrace.length)
      (frameOf (segPattern c d (pointForced mode s.idx)) (encDsel c s.idx)) := by
  rw [← h.idx_eq ha]
  exact frameShows_segPattern c d mode s.idx

/-- Right after reset or power-on, whatever the lines, the chain and the inputs hold. -/
theorem displayInv_of_restarted {c : Config} {s : State} (hr : InRange s) (hh : HardwareTrace s) (hm : s.mainPhase = .sample)
    (hp : s.phasePos = 0#2) (h0 : s.serPos = 0#6) (hi : s.idx = 0#2) (hf : s.frameTrace = []) (hl : s.lineTrace = []) :
    DisplayInv s c :=
  displayInv_of_framesSent hr hh (by simp [PhaseOk, hm, hp, h0]) h0 (by rw [hf, hl]; exact framesSent_nil c)
    (by simp [served, hm, hf, hi]) (by simp [hm]) (by simp [hm])

/-- The counter, the flag, the inputs and the events ahead may take any legal value. -/
theorem DisplayInv.with_surroundings {c : Config} {s : State} (h : DisplayInv s c) {n : BitVec 13} (hn : n.toNat ≤ 5999)
    {r : Ratio} (hr : r.inRange = true) {tr : List Event} (htr : ∀ e ∈ tr, e.ofHardware = true) (pending reset mode : Bool) :
    DisplayInv { s with
      counter := n, refreshPending := pending, btnReset := reset, btnMode := mode, pot := r, trace := tr } c where
  ranges := ⟨hn, h.ranges.mv, h.ranges.serPos, hr⟩
  hardware := htr
  phase := h.phase
  shift := ⟨h.shift.latchLow, h.shift.dataIs, h.shift.clkLow, h.shift.bitsSent⟩
  snap := h.snap
  latched := h.latched
  frames := h.frames
  rotation := h.rotation
  lines := h.lines

/-! ### One step of MAIN keeps the display invariant -/

/-- The first write opens the EMIT: no bit has been sent (R131). -/
theorem shiftOk_latchLo (s : State) : ShiftOk (setSerPos 1#6 (pinWrite .latch false s)) := by
  constructor <;> simp [pinWrite_latch_low, pulsesDone]

/-- The next bit of the frame is put on DATA (R132). -/
theorem ShiftOk.dataBit {s : State} {k : Nat} (h : ShiftOk s) (hk : k < 16) (hpos : s.serPos.toNat = 1 + 3 * k) :
    ShiftOk (setSerPos (s.serPos + 1#6) (pinWrite .data (frameBit (frameOf s.snapSeg s.snapDsel) k) s)) := by
  have hnext : (s.serPos + 1#6).toNat = 2 + 3 * k := by bv_omega
  have hdone : pulsesDone (1 + 3 * k) = k := by unfold pulsesDone; omega
  have hdone' : pulsesDone (2 + 3 * k) = k := by unfold pulsesDone; omega
  constructor
  · exact fun _ => h.latchLow (by omega)
  · simp [pinWrite_data, hnext, hdone']
  · simp only [setSerPos_serPos, hnext]; omega
  · simpa [pinWrite_data, hnext, hpos, hdone, hdone'] using h.bitsSent

/-- CLK is low before its rising edge (R133). -/
theorem ShiftOk.clkLo {s : State} {k : Nat} (h : ShiftOk s) (hk : k < 16) (hpos : s.serPos.toNat = 2 + 3 * k) :
    ShiftOk (setSerPos (s.serPos + 1#6) (pinWrite .clk false s)) := by
  have hnext : (s.serPos + 1#6).toNat = 3 + 3 * k := by bv_omega
  have hdone : pulsesDone (2 + 3 * k) = k := by unfold pulsesDone; omega
  have hdone' : pulsesDone (3 + 3 * k) = k := by unfold pulsesDone; omega
  constructor
  · exact fun _ => h.latchLow (by omega)
  · have hdata := h.dataIs (by omega) (by omega)
    simpa [pinWrite_clk_low, hnext, hpos, hdone, hdone'] using fun _ => hdata
  · exact fun _ _ => rfl
  · simpa [pinWrite_clk_low, hnext, hpos, hdone, hdone'] using h.bitsSent

/-- The rising edge shifts the bit on DATA in, below the bits already sent (R134, R140). -/
theorem ShiftOk.clkHi {s : State} {k : Nat} (h : ShiftOk s) (hk : k < 16) (hpos : s.serPos.toNat = 3 + 3 * k) :
    ShiftOk (setSerPos (s.serPos + 1#6) (pinWrite .clk true s)) := by
  have hnext : (s.serPos + 1#6).toNat = 4 + 3 * k := by bv_omega
  have hdone : pulsesDone (3 + 3 * k) = k := by unfold pulsesDone; omega
  have hdone' : pulsesDone (4 + 3 * k) = k + 1 := by unfold pulsesDone; omega
  have hdata := h.dataIs (by omega) (by omega)
  have hbits := h.bitsSent
  rw [hpos, hdone] at hdata hbits
  rw [pinWrite_clk_rise (h.clkLow (by omega) (by omega))]
  constructor
  · exact fun _ => h.latchLow (by omega)
  · simp only [setSerPos_serPos, hnext]; omega
  · simp only [setSerPos_serPos, hnext]; omega
  · simp only [setSerPos_serPos, setSerPos_sr, setSerPos_snapSeg, setSerPos_snapDsel, hnext, hdone']
    intro j hj
    rw [chainShift_getLsbD _ _ (by omega)]
    split
    next h0 => rw [hdata, frameBit, h0, show 16 - (k + 1) + 0 = 15 - k by omega]
    next h0 => rw [hbits (j - 1) (by omega), show 16 - k + (j - 1) = 16 - (k + 1) + j by omega]

/-- Before the last write the whole frame stands in the chain (R138). -/
theorem ShiftOk.sr_eq_frame {s : State} (h : ShiftOk s) (h49 : s.serPos = 49#6) : s.sr = frameOf s.snapSeg s.snapDsel := by
  have hbits := h.bitsSent
  rw [h49, show pulsesDone (49#6).toNat = 16 from rfl] at hbits
  exact BitVec.eq_of_getLsbD_eq fun j hj => by simpa using hbits j hj

/-- A pin write of an EMIT before the last keeps the chain filling in order, and latches nothing (R135). -/
theorem mainStep_emit_keeps_shiftOk {c : Config} {s t : State} (he : s.mainPhase = .emit) (hp : s.serPos.toNat < 49)
    (h : ShiftOk s) (ht : mainStep s (execWith c) = .next t) : ShiftOk t ∧ t.frameTrace = s.frameTrace := by
  obtain ⟨i, u, hi, hu, rfl⟩ := mainStep_eq_next.mp ht
  have hi : serializerOp (frameOf s.snapSeg s.snapDsel) s.serPos.toNat = some i := by simpa [select, he] using hi
  rcases serializerOp_cases hi with ⟨h0, rfl⟩ | ⟨h49, rfl⟩ | ⟨k, hk, ⟨hpos, rfl⟩ | ⟨hpos, rfl⟩ | ⟨hpos, rfl⟩⟩
  · have h0 : s.serPos = 0#6 := BitVec.eq_of_toNat_eq h0
    simp only [execWith, execLatchLo, h0, if_true, Host.Outcome.next.injEq] at hu
    subst hu
    exact ⟨shiftOk_latchLo s, rfl⟩
  · omega
  · cases hu
    exact ⟨h.dataBit hk hpos, rfl⟩
  · cases hu
    exact ⟨h.clkLo hk hpos, rfl⟩
  · cases hu
    refine ⟨h.clkHi hk hpos, ?_⟩
    rw [pinWrite_clk_rise (h.clkLow (by omega) (by omega))]
    rfl

/-- A step of MAIN in phase EMIT: one more write of the block, or the latch that ends it (R135, R136). -/
theorem mainStep_emit_keeps_displayInv {c : Config} {s t : State} (h : DisplayInv s c) (he : s.mainPhase = .emit)
    (hr : InRange t) (hp : PhaseOk t) (hh : HardwareTrace t) (ht : mainStep s (execWith c) = .next t) : DisplayInv t c := by
  have hser := h.ranges.serPos
  have hidx := h.idx_eq (by simp [he])
  obtain ⟨d, hseg, hdsel⟩ := h.snap he
  by_cases hlt : s.serPos.toNat < 49
  · obtain ⟨hshift, hframes⟩ := mainStep_emit_keeps_shiftOk he hlt h.shift ht
    rw [mainStep_emit c he hlt, Host.Outcome.next.injEq] at ht
    subst ht
    exact {
      ranges := hr, hardware := hh, phase := hp, shift := hshift
      snap := fun _ => ⟨d, by simpa using hseg, by simpa using hdsel⟩
      latched := by simp [he]
      frames := hframes ▸ h.frames
      rotation := by rw [served, hframes]; simpa [he] using hidx
      lines := by
        have hnext : (s.serPos + 1#6).toNat = s.serPos.toNat + 1 := by bv_omega
        rw [hframes]
        simp [hnext, h.lines, List.take_add_one] }
  · have h49 : s.serPos = 49#6 := by bv_omega
    have hshows : FrameShows c (BitVec.ofNat 2 s.frameTrace.length) (frameOf s.snapSeg s.snapDsel) := by
      rw [hseg, hdsel]
      exact h.next_frame_shows (by simp [he]) d _
    have hsent := FramesSent.append (lines := s.frameTrace.flatMap frameWrites) ⟨h.frames, rfl⟩ hshows
    rw [mainStep_emit_last c he h49, pinWrite_latch_rise (h.shift.latchLow (by simp [h49])), h.shift.sr_eq_frame h49,
      Host.Outcome.next.injEq] at ht
    subst ht
    refine displayInv_of_framesSent hr hh hp rfl ?_ ?_ ?_ ?_
    · simpa [h.lines, h49, ← emitWrites_eq_take_append] using hsent
    · simp [served, hidx]
    · simp
    · simp

/-- Every step of MAIN keeps the display invariant (R29, R135, R178). -/
theorem mainStep_keeps_displayInv {c : Config} (hl : c.mvMax = 9999) {s t : State} (h : DisplayInv s c)
    (ht : mainStep s (execWith c) = .next t) : DisplayInv t c := by
  obtain ⟨u, hu, hr, hp, htr⟩ := mainStep_completes hl h.ranges h.phase
  obtain rfl : u = t := by rw [hu] at ht; exact Host.Outcome.next.inj ht
  have hh : HardwareTrace u := by unfold HardwareTrace; rw [htr]; exact h.hardware
  by_cases he : s.mainPhase = .emit
  · exact mainStep_emit_keeps_displayInv h he hr hp hh hu
  have h0 := h.phase.serPos_zero he
  have hsent := h.framesSent h0
  cases hs : s.mainPhase with
  | sample =>
    have hidx := h.idx_eq (by simp [hs])
    by_cases hz : s.phasePos = 0#2
    · cases (mainStep_sampleReset c hs hz).symm.trans hu
      exact displayInv_of_framesSent hr hh hp h0 hsent h.rotation (by simp [hs]) (by simp [hs])
    · cases (mainStep_sampleMode c hs hz).symm.trans hu
      exact displayInv_of_framesSent hr hh hp h0 hsent hidx (by simp) (by simp)
  | gate =>
    have hidx := h.idx_eq (by simp [hs])
    cases (mainStep_gate c hs).symm.trans hu
    cases hpend : s.refreshPending
    all_goals
      rw [hpend] at hr hp hh
      exact displayInv_of_framesSent hr hh hp h0 hsent hidx (by simp) (by simp)
  | compute =>
    have hidx := h.idx_eq (by simp [hs])
    cases hm : s.modeVoltage with
    | false =>
      obtain ⟨d, _, hd⟩ := computeTime_of_le c h.ranges.counter
      rw [mainStep_time c hs hm, hd, andThen_of_next] at hu
      cases hu
      exact displayInv_of_framesSent hr hh hp h0 hsent hidx (fun _ => ⟨d, by simp [hm], rfl⟩) (by simp)
    | true =>
      by_cases hz : s.phasePos = 0#2
      · cases (mainStep_scale c hs hm hz).symm.trans hu
        exact displayInv_of_framesSent hr hh hp h0 hsent h.rotation (by simp [hs]) (by simp [hs])
      by_cases ho : s.phasePos = 1#2
      · cases (mainStep_clamp c hs hm ho).symm.trans hu
        exact displayInv_of_framesSent hr hh hp h0 hsent h.rotation (by simp [hs]) (by simp [hs])
      · obtain ⟨d, _, hd⟩ := voltageDigit_of_le c h.ranges.mv
        rw [mainStep_voltage c hs hm hz ho, hd, andThen_of_next] at hu
        cases hu
        exact displayInv_of_framesSent hr hh hp h0 hsent hidx (fun _ => ⟨d, by simp [hm], rfl⟩) (by simp)
  | emit => exact absurd hs he
  | advance =>
    cases (mainStep_advance c hs).symm.trans hu
    refine displayInv_of_framesSent hr hh hp h0 hsent ?_ (by simp) (by simp)
    have hpos : 0 < s.frameTrace.length := List.length_pos_iff.mpr (h.latched hs)
    have hrot := h.rotation
    simp only [served, hs, if_true] at hrot
    simp only [served, reduceCtorEq, if_false, hrot]
    bv_omega

/-! ### One event keeps the display invariant -/

/-- `REFRESH` as one step, run where MAIN enters COMPUTE (R176): a frame for the current position, and the index moves on. -/
theorem execRefresh_keeps_displayInv {c : Config} (hl : c.mvMax = 9999) {s t : State} (h : DisplayInv s c)
    (hs : s.mainPhase = .compute) (ht : execRefresh s c = .next t) : DisplayInv t c := by
  obtain ⟨u, hu, v, hv, hadv⟩ : ∃ u, compute s c = .next u ∧ ∃ v, execEmit u.snapSeg u.snapDsel u = .next v ∧
      execIdxAdv v = .next t := by
    simpa only [execRefresh, andThen_eq_next] using ht
  have h0 := h.phase.serPos_zero (by simp [hs])
  have hidx := h.idx_eq (by simp [hs])
  obtain ⟨d, _, rfl⟩ := compute_eq_next hu
  simp only [execEmit, h0, if_true, pinWrites_emitWrites, Host.Outcome.next.injEq] at hv
  subst hv
  cases hadv
  have hsent := (h.framesSent h0).append (h.next_frame_shows (by simp [hs]) d s.modeVoltage)
  obtain ⟨hcounter, hmv, _, hpot⟩ := h.ranges
  refine displayInv_of_framesSent ⟨hcounter, ?_, by simp, hpot⟩ h.hardware (by simp [PhaseOk]) rfl hsent ?_ (by simp) (by simp)
  · cases hm : s.modeVoltage
    · simpa [hm] using hmv
    · simpa [hm, hl] using clampMv_le c (c.scaleMv s.pot)
  · simp [served, hidx, BitVec.ofNat_add]

/-- The two samples and the gate of an iteration are MAIN's own first three steps (R203). -/
theorem loopIteration_eq_mainSteps (c : Config) {s : State} (h : atIterationStart s = true) :
    loopIteration s (execWith c) =
      andThen (mainStep s (execWith c)) fun s => andThen (mainStep s (execWith c)) fun s =>
        andThen (mainStep s (execWith c)) fun s => if s.mainPhase = .compute then execRefresh s c else .next s := by
  obtain ⟨hs, hp⟩ : s.mainPhase = .sample ∧ s.phasePos = 0#2 := by simpa [atIterationStart] using h
  cases hpend : s.refreshPending
  all_goals
    simp [loopIteration, execWith, execSampleReset, execSampleMode, execGate, readResetButton, readModeButton, enterPhase,
      setModeFromLevel, clearRefreshPending, mainStep_sampleReset c hs hp, mainStep_sampleMode, mainStep_gate, hs, hpend]

/-- A whole iteration keeps the display invariant (R203). -/
theorem loopIteration_keeps_displayInv {c : Config} (hl : c.mvMax = 9999) {s t : State} (h : DisplayInv s c)
    (hs : atIterationStart s = true) (ht : loopIteration s (execWith c) = .next t) : DisplayInv t c := by
  simp only [loopIteration_eq_mainSteps c hs, andThen_eq_next] at ht
  obtain ⟨u, hu, v, hv, w, hw, ht⟩ := ht
  have hinv := mainStep_keeps_displayInv hl (mainStep_keeps_displayInv hl (mainStep_keeps_displayInv hl h hu) hv) hw
  split at ht
  next hc => exact execRefresh_keeps_displayInv hl hinv hc ht
  next => cases ht; exact hinv

/-- MAIN's steps to the end of an iteration keep the display invariant (entry 23). -/
theorem finishIteration_keeps_displayInv {c : Config} (hl : c.mvMax = 9999) (fuel : Nat) {s t : State} (h : DisplayInv s c)
    (ht : finishIteration fuel s (execWith c) = .next t) : DisplayInv t c := by
  induction fuel generalizing s with
  | zero => cases ht; exact h
  | succ n ih =>
    obtain ⟨u, hu, ht⟩ := andThen_eq_next.mp ht
    have hinv := mainStep_keeps_displayInv hl h hu
    split at ht
    next => cases ht; exact hinv
    next => exact ih hinv ht

theorem runLoop_keeps_displayInv {c : Config} (hl : c.mvMax = 9999) {s t : State} (h : DisplayInv s c)
    (ht : runLoop s (execWith c) = .next t) : DisplayInv t c := by
  unfold runLoop at ht
  split at ht
  next hs => exact loopIteration_keeps_displayInv hl h hs ht
  next => exact finishIteration_keeps_displayInv hl _ h ht

/-- Power-on restarts the invariant, in any state with legal inputs (R260). -/
theorem execPor_displayInv {c : Config} {s t : State} (hpot : s.pot.inRange = true) (hh : HardwareTrace s)
    (ht : execPor s c = .next t) : DisplayInv t c := by
  cases ht
  exact displayInv_of_restarted ⟨by simp, by simp, by simp, hpot⟩ hh rfl rfl rfl rfl rfl rfl

/-- What a hardware event does keeps the display invariant; `s` has the event already off its trace. -/
theorem runEvent_keeps_displayInv {c : Config} (hl : c.mvMax = 9999) (hw : c.wrap = 6000) {e : Event} (he : e.ofHardware = true)
    {s t : State} (h : DisplayInv s c) (ht : runEvent e s (execWith c) = .next t) : DisplayInv t c := by
  obtain ⟨hcounter, _, _, hpot⟩ := h.ranges
  cases e with
  | por => exact execPor_displayInv hpot h.hardware ht
  | tick1s =>
    cases ht
    refine h.with_surroundings ?_ hpot h.hardware s.refreshPending s.btnReset s.btnMode
    rw [tickCounter_toNat hw]
    split <;> omega
  | tick2ms => cases ht; exact h.with_surroundings hcounter hpot h.hardware true s.btnReset s.btnMode
  | btnReset b => cases ht; exact h.with_surroundings hcounter hpot h.hardware s.refreshPending b s.btnMode
  | btnMode b => cases ht; exact h.with_surroundings hcounter hpot h.hardware s.refreshPending s.btnReset b
  | pot r =>
    have hr : r.inRange = true := he
    simp only [runEvent, hr, if_true, Host.Outcome.next.injEq] at ht
    subst ht
    exact h.with_surroundings hcounter hr h.hardware s.refreshPending s.btnReset s.btnMode
  | main => exact mainStep_keeps_displayInv hl h ht
  | loop => exact runLoop_keeps_displayInv hl h ht
  | loopTimes k =>
    cases k with
    | zero => cases ht; exact h
    | succ k =>
      refine runLoop_keeps_displayInv hl (h.with_surroundings hcounter hpot (tr := .loopTimes k :: s.trace) ?_
        s.refreshPending s.btnReset s.btnMode) ht
      exact List.forall_mem_cons.mpr ⟨rfl, h.hardware⟩
  | word f bytes => cases he

/-- Every step on a hardware trace keeps the display invariant, in every configuration with the limits of R9. -/
theorem stepWith_keeps_displayInv {c : Config} (hl : c.mvMax = 9999) (hw : c.wrap = 6000) {s t : State} (h : DisplayInv s c)
    (ht : stepWith c s = .next t) : DisplayInv t c := by
  cases htr : s.trace with
  | nil => exact mainStep_keeps_displayInv hl h (systemStep_of_empty htr ▸ ht)
  | cons e rest =>
    have hall : e.ofHardware = true ∧ ∀ e' ∈ rest, e'.ofHardware = true := by
      simpa [HardwareTrace, htr] using h.hardware
    have hrest := h.with_surroundings h.ranges.counter h.ranges.pot hall.2 s.refreshPending s.btnReset s.btnMode
    exact runEvent_keeps_displayInv hl hw hall.1 hrest (systemStep_of_cons htr ▸ ht)

/-- The state after reset meets the display invariant in every configuration (R40). -/
theorem resetWith_displayInv (c : Config) {tr : List Event} (htr : ∀ e ∈ tr, e.ofHardware = true) :
    DisplayInv { State.resetWith c with trace := tr } c :=
  displayInv_of_restarted ⟨by simp [State.resetWith], by simp [State.resetWith], by simp [State.resetWith], rfl⟩ htr
    rfl rfl rfl rfl rfl rfl

/-- Settles O52: the invariant holds in any freshly reset state, and each event keeps it, by the step of MAIN. -/
theorem everyConfigurationKeepsTheDisplayInvariant : Obligations.EveryConfigurationKeepsTheDisplayInvariant := by
  intro c hc
  exact ⟨fun _ htr => resetWith_displayInv c htr, fun _ _ h ht => stepWith_keeps_displayInv hc.mvMaxIs hc.wrapIs h ht⟩

/-! ### The receiver of the line trace -/

/-- Eight bits of the segment byte are sent, then eight of the digit-select byte (R77, R132). -/
theorem frameBit_frameOf (a b : Byte) (k : Nat) :
    frameBit (frameOf a b) k = if 15 - k < 8 then b.getLsbD (15 - k) else a.getLsbD (15 - k - 8) := by
  simp only [frameBit, frameOf, BitVec.getLsbD_append]

/-- One EMIT, as its frame's bits: LATCH low, three writes for each bit, LATCH high (R130, R132). -/
theorem emitWrites_eq_bitWrites (a b : Byte) :
    emitWrites a b = (.latch, false) :: ((frameBits (frameOf a b)).flatMap bitWrites ++ [(.latch, true)]) := by
  have hbits : frameBits (frameOf a b) =
      [a.getLsbD 7, a.getLsbD 6, a.getLsbD 5, a.getLsbD 4, a.getLsbD 3, a.getLsbD 2, a.getLsbD 1, a.getLsbD 0,
       b.getLsbD 7, b.getLsbD 6, b.getLsbD 5, b.getLsbD 4, b.getLsbD 3, b.getLsbD 2, b.getLsbD 1, b.getLsbD 0] := by
    simp [frameBits, List.range_succ, frameBit_frameOf]
  rw [hbits]
  rfl

@[simp] theorem Receiver.seeAll_nil (r : Receiver) : r.seeAll [] = r := rfl

@[simp] theorem Receiver.seeAll_cons (r : Receiver) (w : Line × Bool) (ws : List (Line × Bool)) :
    r.seeAll (w :: ws) = (r.see w).seeAll ws := rfl

theorem Receiver.seeAll_append (r : Receiver) (ws vs : List (Line × Bool)) :
    r.seeAll (ws ++ vs) = (r.seeAll ws).seeAll vs := List.foldl_append

/-- Between the two LATCH writes the receiver collects the bits sent (R78). -/
theorem Receiver.seeAll_bitWrites (bits : List Bool) {r : Receiver} (h : r.open_ = true) :
    (r.seeAll (bits.flatMap bitWrites)).open_ = true ∧
    (r.seeAll (bits.flatMap bitWrites)).bits = r.bits ++ bits ∧
    (r.seeAll (bits.flatMap bitWrites)).frames = r.frames := by
  induction bits generalizing r with
  | nil => simp [h]
  | cons b bits ih =>
    have hone : r.seeAll (bitWrites b) = { r with data := b, clk := true, bits := r.bits ++ [b] } := by
      simp [bitWrites, Receiver.see, h]
    obtain ⟨hopen, hbits, hframes⟩ := ih (r := r.seeAll (bitWrites b)) (by rw [hone]; exact h)
    rw [List.flatMap_cons, Receiver.seeAll_append]
    exact ⟨hopen, by rw [hbits, hone]; simp, by rw [hframes, hone]⟩

/-- The LATCH write of 1 ends the frame begun by the LATCH write of 0 (R78). -/
theorem Receiver.see_latch_high {r : Receiver} (h : r.open_ = true) :
    r.see (.latch, true) = { r with open_ := false, bits := [], frames := r.frames ++ [r.bits] } := by
  simp [Receiver.see, h]

/-- From one whole EMIT the receiver, in whatever state, recovers the frame (R78). -/
theorem Receiver.seeAll_emitWrites (r : Receiver) (a b : Byte) :
    (r.seeAll (emitWrites a b)).frames = r.frames ++ [frameBits (frameOf a b)] := by
  obtain ⟨hopen, hbits, hframes⟩ :=
    Receiver.seeAll_bitWrites (frameBits (frameOf a b)) (r := r.see (.latch, false)) rfl
  rw [emitWrites_eq_bitWrites, Receiver.seeAll_cons, Receiver.seeAll_append, Receiver.seeAll_cons, Receiver.seeAll_nil,
    Receiver.see_latch_high hopen, hbits, hframes]
  rfl

/-- From whole blocks, one for each frame, it recovers the frames in order. -/
theorem Receiver.seeAll_frameWrites (r : Receiver) (frames : List Word16) :
    (r.seeAll (frames.flatMap frameWrites)).frames = r.frames ++ frames.map frameBits := by
  induction frames generalizing r with
  | nil => simp
  | cons f frames ih =>
    rw [List.flatMap_cons, Receiver.seeAll_append, ih, frameWrites, Receiver.seeAll_emitWrites, frameOf_extractLsb']
    simp

/-- Only a LATCH write of 1 ends a frame (R78). -/
theorem Receiver.see_frames (r : Receiver) {w : Line × Bool} (h : w ≠ (.latch, true)) : (r.see w).frames = r.frames := by
  obtain ⟨line, level⟩ := w
  cases line with
  | data => rfl
  | clk => simp only [Receiver.see]; split <;> rfl
  | latch =>
    cases level with
    | true => exact absurd rfl h
    | false => rfl

/-- Writes with no LATCH write of 1 among them recover nothing. -/
theorem Receiver.seeAll_frames_of_forall_ne (r : Receiver) {ws : List (Line × Bool)} (h : ∀ w ∈ ws, w ≠ (.latch, true)) :
    (r.seeAll ws).frames = r.frames := by
  induction ws generalizing r with
  | nil => rfl
  | cons w ws ih =>
    obtain ⟨hw, hws⟩ := List.forall_mem_cons.mp h
    rw [Receiver.seeAll_cons, ih _ hws, Receiver.see_frames r hw]

/-- The latch comes last in an EMIT (R130). -/
theorem ne_latch_high_of_mem_take {a b : Byte} {p : Nat} (hp : p ≤ 49) :
    ∀ w ∈ (emitWrites a b).take p, w ≠ (.latch, true) := by
  intro w hw
  have hw : w ∈ (emitWrites a b).take 49 := List.take_subset_take_left _ hp hw
  rintro rfl
  simp [emitWrites, shiftByteWrites, bitWrites] at hw

/-- Settles O49: the whole blocks of the line trace give the frames, the block begun gives none yet. -/
theorem lineTraceGivesTheFrameTrace : Obligations.LineTraceGivesTheFrameTrace := by
  intro s h
  rw [h.lines, Receiver.seeAll_append, Receiver.seeAll_frames_of_forall_ne _ (ne_latch_high_of_mem_take h.ranges.serPos),
    Receiver.seeAll_frameWrites, List.nil_append]

/-! ### One step of MAIN, one pin write, one operation of a configuration -/

/-- Where MAIN selects an operation, its step runs it and moves past it. -/
theorem mainStep_of_select {run : Meaning} {s : State} {i : Instr} (h : select s = some i) :
    mainStep s run = andThen (run i s) fun t => .next (afterMain i t) := by
  simp [mainStep, h]

/-- Settles O7: on an empty trace and on a `main` event the step is MAIN's; what is selected does not depend on the trace. -/
theorem stepRunsWhatMainSelects : Obligations.StepRunsWhatMainSelects := by
  intro s i
  refine ⟨fun htr hi => ?_, fun rest htr hi => ?_⟩
  · exact (step_of_empty htr).trans (mainStep_of_select hi)
  · exact (step_of_cons htr).trans (mainStep_of_select (s := { s with trace := rest }) hi)

/-- Settles O15: line by line, the two edges the chain reacts to and the writes it ignores. -/
theorem pinWriteMovesTheChain : Obligations.PinWriteMovesTheChain := by
  intro s b
  refine ⟨pinWrite_data b s, fun h => ?_, ?_, pinWrite_latch_rise, ?_⟩
  · rw [pinWrite_clk_rise h, chainShift_eq_shiftLeft_or]
  · rintro (rfl | h)
    · exact pinWrite_clk_low s
    · exact pinWrite_clk_high b h
  · rintro (rfl | h)
    · exact pinWrite_latch_low s
    · exact pinWrite_latch_high b h

/-- A segment lookup inside the table returns the table's byte (R100). -/
theorem returnSeg_of_lt (c : Config) (d : Fin 10) (s : State) :
    returnSeg c d.val s = .next { s with result := c.segLut[d] } := by
  simp [returnSeg, encSeg_of_lt]

/-- The ten digit codes are the ten segment lookups (R84, R101 to R110). -/
theorem execWith_decodeDcode (c : Config) (d : Fin 10) (s : State) :
    execWith c (decodeDcode (BitVec.ofNat 4 d.val)) s = returnSeg c d.val s := by
  fin_cases d <;> rfl

/-- The four position codes are the four digit-select lookups (R75, R113 to R116). -/
theorem execWith_decodePos (c : Config) (i : Fin 4) (s : State) :
    execWith c (decodePos (BitVec.ofNat 2 i.val)) s = returnDsel c (BitVec.ofNat 2 i.val) s := by
  fin_cases i <;> rfl

/-- Settles O51: each operation names the field of the record it takes; the lookups are inside their tables. -/
theorem operationsTakeTheirConfiguration : Obligations.OperationsTakeTheirConfiguration := by
  intro c s
  refine ⟨fun d => ?_, fun i => ?_, fun p => rfl, rfl, rfl, rfl, _, rfl, rfl, rfl, rfl⟩
  · rw [execWith_decodeDcode, returnSeg_of_lt]
  · rw [execWith_decodePos, returnDsel, encDsel_eq]

end Sys2Proof.Machine

/-! ## The state: what each operation and each step of MAIN writes, the ranges, the frames owed -/

namespace Sys2Proof.Machine

/-! ### The display invariant, reset and the environment -/

/-- Settles O47: the configuration of this machine has the limits under which a step keeps the invariant. -/
theorem stepKeepsTheDisplayInvariant : Obligations.StepKeepsTheDisplayInvariant := by
  intro s t h ht
  rw [← stepWith_config] at ht
  exact stepWith_keeps_displayInv config_mvMax config_wrap h ht

/-- Settles O46: the reset state of every configuration meets the invariant, so this machine's does. -/
theorem resetMeetsTheDisplayInvariant : Obligations.ResetMeetsTheDisplayInvariant :=
  fun _ htr => resetWith_displayInv config htr

/-- Settles O44: the ranges are a part of the display invariant. -/
theorem resetIsInRange : Obligations.ResetIsInRange :=
  (resetMeetsTheDisplayInvariant [] fun _ he => nomatch he).ranges

/-- Settles O40: each value as `State.resetWith` writes it, the lines from `PIN_RESET`. -/
theorem resetStateHoldsTheListedValues : Obligations.ResetStateHoldsTheListedValues :=
  ⟨rfl, rfl, rfl, rfl, rfl, rfl, rfl, rfl, rfl, rfl, rfl, rfl⟩

/-- Settles O9: each event is taken off the trace and sets its input; for the ratio, the test of `Ratio.inRange` decides. -/
theorem environmentSetsOnlyItsInputs : Obligations.EnvironmentSetsOnlyItsInputs := by
  intro s rest
  refine ⟨fun b htr => step_of_cons htr, fun b htr => step_of_cons htr, fun r htr hden hnum => ?_, fun r htr hbad => ?_⟩
  · have hr : r.inRange = true := by simp [Ratio.inRange, hden, hnum]
    rw [step_of_cons htr, runEvent, if_pos hr]
  · have hr : ¬ r.inRange = true := by simp only [Ratio.inRange, decide_eq_true_eq]; omega
    rw [step_of_cons htr, runEvent, if_neg hr]

/-! ### What an operation leaves behind -/

/-- The eight digit operations of the multiplexer (R82). -/
def digitOps : List Instr := [.t0, .t1, .t2, .t3, .v0, .v1, .v2, .v3]

/-- The state after a whole EMIT that starts with none in progress: the frame stands in the chain and at its outputs (R138, R139). -/
def afterEmit (a b : Byte) (s : State) : State :=
  { s with
    data := b.getLsbD 0, clk := true, latch := true, sr := frameOf a b, out := frameOf a b
    lineTrace := s.lineTrace ++ emitWrites a b
    frameTrace := s.frameTrace ++ [frameOf a b] }

/-- The state an operation leaves where it completes, operation by operation. The encoder operations differ only in the byte returned, the digit
operations only in the three working values. -/
inductive Effect (c : Config) (s : State) : Instr → State → Prop
  | returns {i : Instr} (hi : i.format = .dcode ∨ i.format = .pos ∨ ∃ p, i = .forceDp p) (p : Byte) :
    Effect c s i { s with result := p }
  | shows {i : Instr} (hi : i ∈ digitOps) (d : BitVec 4) (a b : Byte) :
    Effect c s i { s with snapDigit := d, snapSeg := a, snapDsel := b }
  | emit (a b : Byte) (h0 : s.serPos = 0#6) : Effect c s (.emit a b) (afterEmit a b s)
  | latchLo (h0 : s.serPos = 0#6) : Effect c s .latchLo (setSerPos 1#6 (pinWrite .latch false s))
  | dataBit (b : Bool) : Effect c s (.dataBit b) (setSerPos (s.serPos + 1#6) (pinWrite .data b s))
  | clkLo : Effect c s .clkLo (setSerPos (s.serPos + 1#6) (pinWrite .clk false s))
  | clkHi : Effect c s .clkHi (setSerPos (s.serPos + 1#6) (pinWrite .clk true s))
  | latchHi : Effect c s .latchHi (setSerPos 0#6 (pinWrite .latch true s))
  | gate : Effect c s .gate (enterPhase (if s.refreshPending then .compute else .sample) (clearRefreshPending s))
  | idxAdv : Effect c s .idxAdv (enterPhase .sample { s with idx := s.idx + 1#2 })
  | refresh {u : State} (hu : compute s c = .next u) (h0 : s.serPos = 0#6) :
    Effect c s .refresh { afterEmit u.snapSeg u.snapDsel u with idx := u.idx + 1#2, mainPhase := .sample, phasePos := 0#2 }
  | tick1s : Effect c s .tick1s { s with counter := tickCounter c s.counter }
  | tick2ms : Effect c s .tick2ms (setRefreshPending s)
  | sampleReset : Effect c s .sampleReset
      { s with counter := if s.prevReset && !s.btnReset then 0#13 else s.counter, prevReset := s.btnReset }
  | sampleMode : Effect c s .sampleMode (enterPhase .gate (setModeFromLevel s.btnMode s))
  | scale : Effect c s .scale { s with mvRaw := c.scaleMv s.pot }
  | clamp : Effect c s .clamp { s with mv := clampMv c s.mvRaw }
  | por {t : State} (ht : execPor s c = .next t) : Effect c s .por t

/-- A digit operation that completes writes the three working values. -/
theorem execWith_digitOps_eq_next {c : Config} {i : Instr} (hi : i ∈ digitOps) {s t : State} (h : execWith c i s = .next t) :
    ∃ d a b, t = { s with snapDigit := d, snapSeg := a, snapDsel := b } := by
  simp only [digitOps, List.mem_cons, List.not_mem_nil, or_false] at hi
  rcases hi with rfl | rfl | rfl | rfl | rfl | rfl | rfl | rfl
  all_goals
    obtain ⟨_, _, rfl⟩ := showDigit_eq_next h
    exact ⟨_, _, _, rfl⟩

/-- A segment lookup that completes writes the returned byte. -/
theorem effect_of_returnSeg {c : Config} {s t : State} {i : Instr} (hi : i.format = .dcode) {d : Nat}
    (h : returnSeg c d s = .next t) : Effect c s i t := by
  obtain ⟨p, rfl⟩ := returnSeg_eq_next h
  exact .returns (.inl hi) p

/-- `GATE` in one form: the flag is false afterwards in both branches (R161). -/
theorem execGate_eq (s : State) :
    execGate s = .next (enterPhase (if s.refreshPending then .compute else .sample) (clearRefreshPending s)) := by
  cases h : s.refreshPending <;> simp [execGate, enterPhase, clearRefreshPending, h]

/-- An EMIT that completes started with none in progress (U4). -/
theorem execEmit_eq_next {a b : Byte} {s t : State} :
    execEmit a b s = .next t ↔ s.serPos = 0#6 ∧ t = afterEmit a b s := by
  by_cases h : s.serPos = 0#6
  · simp [execEmit, h, pinWrites_emitWrites, afterEmit, setSerPos, eq_comm]
  · simp [execEmit, h]

/-- A REFRESH that completes: COMPUTE, then the whole EMIT of what it prepared, then the index moves on (R176). -/
theorem execRefresh_eq_next {c : Config} {s t : State} (h : execRefresh s c = .next t) :
    ∃ u, compute s c = .next u ∧ s.serPos = 0#6 ∧
      t = { afterEmit u.snapSeg u.snapDsel u with idx := u.idx + 1#2, mainPhase := .sample, phasePos := 0#2 } := by
  obtain ⟨u, hu, v, hv, hadv⟩ : ∃ u, compute s c = .next u ∧ ∃ v, execEmit u.snapSeg u.snapDsel u = .next v ∧
      execIdxAdv v = .next t := by
    simpa only [execRefresh, andThen_eq_next] using h
  obtain ⟨h0, rfl⟩ := execEmit_eq_next.mp hv
  have hser : u.serPos = s.serPos := by
    obtain ⟨d, _, rfl⟩ := compute_eq_next hu
    rfl
  exact ⟨u, hu, hser ▸ h0, (Host.Outcome.next.inj hadv).symm⟩

/-- What every operation that completes does. -/
theorem execWith_effect {c : Config} {i : Instr} {s t : State} (h : execWith c i s = .next t) : Effect c s i t := by
  cases i with
  | seg0 | seg1 | seg2 | seg3 | seg4 | seg5 | seg6 | seg7 | seg8 | seg9 =>
    simp only [execWith] at h
    exact effect_of_returnSeg rfl h
  | dcodeReserved10_11 | dcodeReserved12_15 => cases h
  | forceDp p => cases h; exact .returns (.inr (.inr ⟨p, rfl⟩)) _
  | dsel0 | dsel1 | dsel2 | dsel3 => cases h; exact .returns (.inr (.inl rfl)) _
  | t0 | t1 | t2 | t3 | v0 | v1 | v2 | v3 =>
    obtain ⟨d, a, b, rfl⟩ := execWith_digitOps_eq_next (by decide) h
    exact .shows (by decide) d a b
  | emit a b => obtain ⟨h0, rfl⟩ := execEmit_eq_next.mp h; exact .emit a b h0
  | latchLo =>
    simp only [execWith, execLatchLo] at h
    split at h
    next h0 => cases h; exact .latchLo h0
    next => cases h
  | gate => cases (execGate_eq s).symm.trans h; exact .gate
  | refresh => obtain ⟨u, hu, h0, rfl⟩ := execRefresh_eq_next h; exact .refresh hu h0
  | por => exact .por h
  | dataBit | clkLo | clkHi | latchHi | idxAdv | tick1s | tick2ms | sampleReset | sampleMode | scale | clamp =>
    cases h; constructor

/-! ### Who writes what -/

/-- A write of CLK touches neither the other lines nor the outputs (R140, R142). -/
@[simp] theorem pinWrite_clk_frame (b : Bool) (s : State) :
    (pinWrite .clk b s).data = s.data ∧ (pinWrite .clk b s).latch = s.latch ∧ (pinWrite .clk b s).out = s.out ∧
      (pinWrite .clk b s).frameTrace = s.frameTrace := by
  simp only [pinWrite]
  split <;> exact ⟨rfl, rfl, rfl, rfl⟩

/-- A write of LATCH touches neither the other lines nor the shift stages (R141, R142). -/
@[simp] theorem pinWrite_latch_frame (b : Bool) (s : State) :
    (pinWrite .latch b s).data = s.data ∧ (pinWrite .latch b s).clk = s.clk ∧ (pinWrite .latch b s).sr = s.sr := by
  simp only [pinWrite]
  split <;> exact ⟨rfl, rfl, rfl⟩

/-- Settles O41: what each operation leaves behind differs from the state before only in registers the table gives it. -/
theorem onlyTheOwnersWriteEachRegister : Obligations.OnlyTheOwnersWriteEachRegister := by
  intro s t i h
  rw [← execWith_config] at h
  cases execWith_effect h with
  | shows hi =>
    have hi : i ∈ digitOps ++ [.refresh, .por] := List.mem_append_left _ hi
    simpa [digitOps] using fun _ => hi
  | emit => simp [afterEmit]
  | latchLo => simp [pinWrite_latch_low]
  | dataBit => simp [pinWrite_data]
  | clkLo => simp [pinWrite_clk_low]
  | refresh hu =>
    obtain ⟨d, _, rfl⟩ := compute_eq_next hu
    simp [afterEmit]
  | por ht => cases ht; simp
  | _ => simp

/-- The ranges after an operation given by its bits: only EMIT among them could move `ser_pos`, and it ends where it began, at 0 (R79, R83). -/
theorem execWith_keeps_inRange_of_format_ne_evt {c : Config} {i : Instr} (hi : i.format ≠ .evt) {s t : State} (h : InRange s)
    (ht : execWith c i s = .next t) : InRange t := by
  obtain ⟨hcounter, hmv, hser, hpot⟩ := h
  cases execWith_effect ht with
  | returns | shows | emit => exact ⟨hcounter, hmv, hser, hpot⟩
  | _ => exact absurd rfl hi

/-! ### What a step of MAIN leaves behind -/

/-- The state a step of MAIN leaves where it completes, from any state at all; in EMIT no write but the last raises LATCH (R29, R135). -/
inductive MainMove (c : Config) (s : State) : State → Prop
  | sampleReset (hs : s.mainPhase = .sample) : MainMove c s
      { s with counter := if s.prevReset && !s.btnReset then 0#13 else s.counter, prevReset := s.btnReset, phasePos := 1#2 }
  | sampleMode (hs : s.mainPhase = .sample) : MainMove c s
      { s with modeVoltage := !s.btnMode, mainPhase := .gate, phasePos := 0#2 }
  | gate (hs : s.mainPhase = .gate) : MainMove c s
      { s with refreshPending := false, mainPhase := if s.refreshPending then .compute else .sample, phasePos := 0#2 }
  | scale (hs : s.mainPhase = .compute) : MainMove c s { s with mvRaw := c.scaleMv s.pot, phasePos := 1#2 }
  | clamp (hs : s.mainPhase = .compute) : MainMove c s { s with mv := clampMv c s.mvRaw, phasePos := 2#2 }
  | digit (hs : s.mainPhase = .compute) (d : BitVec 4) (a b : Byte) : MainMove c s
      (enterPhase .emit { s with snapDigit := d, snapSeg := a, snapDsel := b })
  | write (hs : s.mainPhase = .emit) (hp : s.serPos.toNat < 49) {w : Line × Bool} (hw : w ≠ (.latch, true)) : MainMove c s
      (setSerPos (s.serPos + 1#6) (pinWrite w.1 w.2 s))
  | latch (hs : s.mainPhase = .emit) : MainMove c s (enterPhase .advance (setSerPos 0#6 (pinWrite .latch true s)))
  | advance (hs : s.mainPhase = .advance) : MainMove c s { s with idx := s.idx + 1#2, mainPhase := .sample, phasePos := 0#2 }

/-- The selector of COMPUTE picks one of the eight digit operations (R76). -/
theorem decodeSel_mem_digitOps (x : BitVec 3) : decodeSel x ∈ digitOps := by
  revert x; decide

/-- MAIN enters EMIT after a digit operation (R29). -/
theorem afterMain_digitOps {i : Instr} (hi : i ∈ digitOps) (t : State) : afterMain i t = enterPhase .emit t := by
  simp only [digitOps, List.mem_cons, List.not_mem_nil, or_false] at hi
  rcases hi with rfl | rfl | rfl | rfl | rfl | rfl | rfl | rfl <;> rfl

/-- MAIN in COMPUTE, where neither `SCALE` nor `CLAMP` comes before the digit. -/
theorem mainStep_digit_move {c : Config} {s t : State} (hs : s.mainPhase = .compute)
    (hsel : select s = some (decodeSel (selectorOf s))) (ht : mainStep s (execWith c) = .next t) : MainMove c s t := by
  obtain ⟨i, u, hi, hu, rfl⟩ := mainStep_eq_next.mp ht
  obtain rfl : decodeSel (selectorOf s) = i := by simpa [hsel] using hi
  obtain ⟨d, a, b, rfl⟩ := execWith_digitOps_eq_next (decodeSel_mem_digitOps _) hu
  rw [afterMain_digitOps (decodeSel_mem_digitOps _)]
  exact .digit hs d a b

/-- MAIN in EMIT has no step above `ser_pos` 49 (C9). -/
theorem serPos_le_of_mainStep_emit {run : Meaning} {s t : State} (hs : s.mainPhase = .emit) (ht : mainStep s run = .next t) :
    s.serPos.toNat ≤ 49 := by
  obtain ⟨i, _, hi, _, _⟩ := mainStep_eq_next.mp ht
  have hi : serializerOp (frameOf s.snapSeg s.snapDsel) s.serPos.toNat = some i := by simpa [select, hs] using hi
  rcases serializerOp_cases hi with ⟨h, _⟩ | ⟨h, _⟩ | ⟨k, hk, ⟨h, _⟩ | ⟨h, _⟩ | ⟨h, _⟩⟩
  all_goals omega

/-- Every step of MAIN that completes is one of these moves. -/
theorem mainStep_move {c : Config} {s t : State} (ht : mainStep s (execWith c) = .next t) : MainMove c s t := by
  cases hs : s.mainPhase with
  | sample =>
    by_cases hz : s.phasePos = 0#2
    · cases (mainStep_sampleReset c hs hz).symm.trans ht; exact .sampleReset hs
    · cases (mainStep_sampleMode c hs hz).symm.trans ht; exact .sampleMode hs
  | gate => cases (mainStep_gate c hs).symm.trans ht; exact .gate hs
  | compute =>
    cases hm : s.modeVoltage with
    | false => exact mainStep_digit_move hs (by simp [select, hs, hm]) ht
    | true =>
      by_cases hz : s.phasePos = 0#2
      · cases (mainStep_scale c hs hm hz).symm.trans ht; exact .scale hs
      by_cases ho : s.phasePos = 1#2
      · cases (mainStep_clamp c hs hm ho).symm.trans ht; exact .clamp hs
      · exact mainStep_digit_move hs (by simp [select, hs, hz, ho]) ht
  | emit =>
    have hle := serPos_le_of_mainStep_emit hs ht
    by_cases hlt : s.serPos.toNat < 49
    · cases (mainStep_emit c hs hlt).symm.trans ht
      refine .write hs hlt (ne_latch_high_of_mem_take (a := s.snapSeg) (b := s.snapDsel) hlt _ ?_)
      simp [List.take_add_one]
    · cases (mainStep_emit_last c hs (by bv_omega)).symm.trans ht; exact .latch hs
  | advance => cases (mainStep_advance c hs).symm.trans ht; exact .advance hs

/-- What every step of MAIN keeps, MAIN's steps to the end of an iteration keep (entry 23). -/
theorem finishIteration_keeps {c : Config} {P : State → Prop} (hmain : ∀ {s t}, P s → mainStep s (execWith c) = .next t → P t)
    (fuel : Nat) {s t : State} (h : P s) (ht : finishIteration fuel s (execWith c) = .next t) : P t := by
  induction fuel generalizing s with
  | zero => cases ht; exact h
  | succ n ih =>
    obtain ⟨u, hu, ht⟩ := andThen_eq_next.mp ht
    split at ht
    next => cases ht; exact hmain h hu
    next => exact ih (hmain h hu) ht

/-- What every step of MAIN keeps, and `REFRESH` where MAIN stands in COMPUTE, every iteration keeps (R203). -/
theorem runLoop_keeps {c : Config} {P : State → Prop} (hmain : ∀ {s t}, P s → mainStep s (execWith c) = .next t → P t)
    (hrefresh : ∀ {s t}, P s → s.mainPhase = .compute → execRefresh s c = .next t → P t) {s t : State} (h : P s)
    (ht : runLoop s (execWith c) = .next t) : P t := by
  unfold runLoop at ht
  split at ht
  next hs =>
    simp only [loopIteration_eq_mainSteps c hs, andThen_eq_next] at ht
    obtain ⟨u, hu, v, hv, w, hw, ht⟩ := ht
    have hP := hmain (hmain (hmain h hu) hv) hw
    split at ht
    next hc => exact hrefresh hP hc ht
    next => cases ht; exact hP
  next => exact finishIteration_keeps hmain _ h ht

/-! ### The ranges -/

/-- Every step of MAIN keeps the ranges: it can zero the counter, clamp `mv` and move `ser_pos` up to 49 (R21, R27, R207). -/
theorem mainStep_keeps_inRange {c : Config} (hl : c.mvMax = 9999) {s t : State} (h : InRange s)
    (ht : mainStep s (execWith c) = .next t) : InRange t := by
  obtain ⟨hcounter, hmv, hser, hpot⟩ := h
  cases mainStep_move ht with
  | sampleReset =>
    refine ⟨?_, hmv, hser, hpot⟩
    dsimp only
    split
    · exact Nat.zero_le _
    · exact hcounter
  | clamp => exact ⟨hcounter, hl ▸ clampMv_le c _, hser, hpot⟩
  | write hs hp =>
    refine ⟨by simpa using hcounter, by simpa using hmv, ?_, by simpa using hpot⟩
    simp only [setSerPos_serPos]
    bv_omega
  | latch => exact ⟨by simpa using hcounter, by simpa using hmv, by simp, by simpa using hpot⟩
  | sampleMode | gate | scale | digit | advance => exact ⟨hcounter, hmv, hser, hpot⟩

/-- `REFRESH` writes `mv` through the clamp only (R169, R176). -/
theorem execRefresh_keeps_inRange {c : Config} (hl : c.mvMax = 9999) {s t : State} (h : InRange s)
    (ht : execRefresh s c = .next t) : InRange t := by
  obtain ⟨hcounter, hmv, hser, hpot⟩ := h
  obtain ⟨u, hu, _, rfl⟩ := execRefresh_eq_next ht
  obtain ⟨d, _, rfl⟩ := compute_eq_next hu
  refine ⟨hcounter, ?_, hser, hpot⟩
  dsimp only [afterEmit]
  split
  · exact hl ▸ clampMv_le c _
  · exact hmv

theorem runLoop_keeps_inRange {c : Config} (hl : c.mvMax = 9999) {s t : State} (h : InRange s)
    (ht : runLoop s (execWith c) = .next t) : InRange t :=
  runLoop_keeps (mainStep_keeps_inRange hl) (fun h _ => execRefresh_keeps_inRange hl h) h ht

theorem decodeDcode_format (d : BitVec 4) : (decodeDcode d).format = .dcode := by revert d; decide

theorem decodePos_format (i : BitVec 2) : (decodePos i).format = .pos := by revert i; decide

theorem decodeSel_format (x : BitVec 3) : (decodeSel x).format = .sel := by revert x; decide

/-- A decoder of the narrowed byte gives what it gives on some bits. -/
theorem exists_of_narrowByte_map {n : Nat} {b : Byte} {g : BitVec n → Instr} {i : Instr}
    (h : (narrowByte n b).map g = .ok i) : ∃ x, g x = i := by
  cases hb : narrowByte n b with
  | ok x => rw [hb] at h; exact ⟨x, Except.ok.inj h⟩
  | error => rw [hb] at h; cases h

/-- Bits decode to operations of their own format only (R70), so never to one of format EVT. -/
theorem format_of_decode {f : Format} {bytes : List Byte} {i : Instr} (h : decode f bytes = .ok i) : i.format = f ∧ f ≠ .evt := by
  cases f with
  | dcode =>
    simp only [decode] at h
    split at h
    next => obtain ⟨d, rfl⟩ := exists_of_narrowByte_map h; exact ⟨decodeDcode_format d, by decide⟩
    next => cases h
  | pos =>
    simp only [decode] at h
    split at h
    next => obtain ⟨p, rfl⟩ := exists_of_narrowByte_map h; exact ⟨decodePos_format p, by decide⟩
    next => cases h
  | sel =>
    simp only [decode] at h
    split at h
    next => obtain ⟨x, rfl⟩ := exists_of_narrowByte_map h; exact ⟨decodeSel_format x, by decide⟩
    next => cases h
  | frame =>
    simp only [decode] at h
    split at h
    next => cases h; exact ⟨rfl, by decide⟩
    next => cases h
  | segp | dselp | evt => cases h

/-- Whatever happens next keeps the ranges, a bare word too. -/
theorem runEvent_keeps_inRange {c : Config} (hl : c.mvMax = 9999) (hw : c.wrap = 6000) (e : Event) {s t : State} (h : InRange s)
    (ht : runEvent e s (execWith c) = .next t) : InRange t := by
  have ⟨hcounter, hmv, hser, hpot⟩ := h
  cases e with
  | por => cases ht; exact ⟨by simp, by simp, by simp, hpot⟩
  | tick1s =>
    cases ht
    refine ⟨?_, hmv, hser, hpot⟩
    rw [tickCounter_toNat hw]
    split <;> omega
  | tick2ms | btnReset | btnMode => cases ht; exact ⟨hcounter, hmv, hser, hpot⟩
  | pot r =>
    simp only [runEvent] at ht
    split at ht
    next hr => cases ht; exact ⟨hcounter, hmv, hser, hr⟩
    next => cases ht
  | main => exact mainStep_keeps_inRange hl h ht
  | loop => exact runLoop_keeps_inRange hl h ht
  | loopTimes k =>
    cases k with
    | zero => cases ht; exact h
    | succ k => exact runLoop_keeps_inRange hl (s := { s with trace := .loopTimes k :: s.trace }) ⟨hcounter, hmv, hser, hpot⟩ ht
  | word f bytes =>
    simp only [runEvent] at ht
    split at ht
    next i hi =>
      obtain ⟨rfl, hf⟩ := format_of_decode hi
      exact execWith_keeps_inRange_of_format_ne_evt hf h ht
    next => cases ht

/-- Settles O45: MAIN's own step or the first event keeps the ranges, in every configuration with the limits of R9. -/
theorem stepKeepsTheRanges : Obligations.StepKeepsTheRanges := by
  intro s t h ht
  rw [← stepWith_config, stepWith] at ht
  cases htr : s.trace with
  | nil =>
    rw [systemStep_of_empty htr] at ht
    exact mainStep_keeps_inRange config_mvMax h ht
  | cons e rest =>
    rw [systemStep_of_cons htr] at ht
    have hrest : InRange { s with trace := rest } := ⟨h.counter, h.mv, h.serPos, h.pot⟩
    exact runEvent_keeps_inRange config_mvMax config_wrap e hrest ht

/-! ### Refreshes owed -/

/-- A pin write other than LATCH high latches no frame (R141). -/
theorem pinWrite_frameTrace_of_ne {w : Line × Bool} (h : w ≠ (.latch, true)) (s : State) :
    (pinWrite w.1 w.2 s).frameTrace = s.frameTrace := by
  obtain ⟨l, b⟩ := w
  cases l with
  | data => simp [pinWrite_data]
  | clk => simp
  | latch =>
    obtain rfl : b = false := by simpa using h
    simp [pinWrite_latch_low]

/-- LATCH high latches at most one frame (R141, R142). -/
theorem pinWrite_latch_frameTrace_length_le (s : State) :
    (pinWrite .latch true s).frameTrace.length ≤ s.frameTrace.length + 1 := by
  cases h : s.latch
  · simp [pinWrite_latch_rise h]
  · simp [pinWrite_latch_high true h]

/-- No step of MAIN adds to the refreshes owed: the gate turns a pending one into one under way, the latch turns that into a frame. -/
theorem mainStep_refreshesOwed_le {c : Config} {s t : State} (ht : mainStep s (execWith c) = .next t) :
    refreshesOwed t ≤ refreshesOwed s := by
  cases mainStep_move ht with
  | sampleReset | scale | clamp => exact Nat.le_refl _
  | sampleMode hs => simp [refreshesOwed, hs]
  | gate hs => cases hpend : s.refreshPending <;> simp [refreshesOwed, hs, hpend]
  | digit hs => simp [refreshesOwed, hs]
  | write hs hp hw => simp [refreshesOwed, hs, pinWrite_frameTrace_of_ne hw]
  | latch hs =>
    have hlen := pinWrite_latch_frameTrace_length_le s
    simp only [refreshesOwed, hs, enterPhase_frameTrace, enterPhase_refreshPending, enterPhase_mainPhase, setSerPos_frameTrace,
      setSerPos_refreshPending, pinWrite_refreshPending, reduceCtorEq, or_self, or_true, if_true, if_false]
    omega
  | advance hs => simp [refreshesOwed, hs]

/-- `REFRESH` run in COMPUTE turns the refresh under way into one frame (R176). -/
theorem execRefresh_refreshesOwed_le {c : Config} {s t : State} (hs : s.mainPhase = .compute) (ht : execRefresh s c = .next t) :
    refreshesOwed t ≤ refreshesOwed s := by
  obtain ⟨u, hu, _, rfl⟩ := execRefresh_eq_next ht
  obtain ⟨d, _, rfl⟩ := compute_eq_next hu
  simp only [refreshesOwed, hs, afterEmit, List.length_append, List.length_singleton, reduceCtorEq, or_self, true_or, if_true, if_false]
  omega

theorem runLoop_refreshesOwed_le {c : Config} {s t : State} (ht : runLoop s (execWith c) = .next t) :
    refreshesOwed t ≤ refreshesOwed s :=
  runLoop_keeps (P := fun u => refreshesOwed u ≤ refreshesOwed s) (fun h hu => (mainStep_refreshesOwed_le hu).trans h)
    (fun h hs hu => (execRefresh_refreshesOwed_le hs hu).trans h) (Nat.le_refl _) ht

/-- A tick makes at most one more refresh pending; a flag already set makes none (R22). -/
theorem refreshesOwed_setRefreshPending_le (s : State) : refreshesOwed (setRefreshPending s) ≤ refreshesOwed s + 1 := by
  have h : refreshesOwed (setRefreshPending s) =
      s.frameTrace.length + 1 + if s.mainPhase = .compute ∨ s.mainPhase = .emit then 1 else 0 := rfl
  rw [h, refreshesOwed]
  omega

/-- A hardware event adds one refresh to those owed where it is a tick of the 2-millisecond timer, and none otherwise. -/
theorem runEvent_refreshesOwed_le {c : Config} {e : Event} (he : e.ofHardware = true) {s t : State}
    (ht : runEvent e s (execWith c) = .next t) : refreshesOwed t ≤ refreshesOwed s + if e = .tick2ms then 1 else 0 := by
  cases e with
  | por => cases ht; simp [refreshesOwed]
  | tick1s | btnReset | btnMode => cases ht; exact Nat.le_refl _
  | tick2ms =>
    obtain rfl : setRefreshPending s = t := Host.Outcome.next.inj ht
    exact refreshesOwed_setRefreshPending_le s
  | pot r =>
    simp only [runEvent] at ht
    split at ht
    next => cases ht; exact Nat.le_refl _
    next => cases ht
  | main => exact mainStep_refreshesOwed_le ht
  | loop => exact runLoop_refreshesOwed_le ht
  | loopTimes k =>
    cases k with
    | zero => cases ht; exact Nat.le_refl _
    | succ k => exact runLoop_refreshesOwed_le (s := { s with trace := .loopTimes k :: s.trace }) ht
  | word => cases he

/-- Settles O50: of all that can happen next only a tick adds to the refreshes owed, and it adds at most one. -/
theorem framesNeverOutrunRefreshTicks : Obligations.FramesNeverOutrunRefreshTicks := by
  intro s t hh ht
  rw [← stepWith_config, stepWith] at ht
  cases htr : s.trace with
  | nil =>
    rw [systemStep_of_empty htr] at ht
    exact (mainStep_refreshesOwed_le ht).trans (Nat.le_add_right _ _)
  | cons e rest =>
    rw [systemStep_of_cons htr] at ht
    have h := runEvent_refreshesOwed_le (hh e (by simp [htr])) ht
    simp only [List.head?_cons, Option.some.injEq]
    exact h

end Sys2Proof.Machine

/-! ## The encoding: the words of each format, the receiver, the point, a step on a bare word -/

namespace Sys2Proof.Machine

/-! ### Decode and encode -/

/-- A byte fits a field of at most eight bits exactly where it is the field's value with zeros above (R70). -/
theorem narrowByte_eq_ok {n : Nat} (hn : n ≤ 8) {b : Byte} {x : BitVec n} :
    narrowByte n b = .ok x ↔ b = x.setWidth 8 := by
  have hx : x.toNat < 2 ^ n := x.isLt
  have hle : 2 ^ n ≤ 2 ^ 8 := Nat.pow_le_pow_right (by decide) hn
  have hwide : x.toNat % 256 = x.toNat := Nat.mod_eq_of_lt (by omega)
  unfold narrowByte
  split
  next hb => simp [BitVec.toNat_eq, hwide, Nat.mod_eq_of_lt hb]
  next hb =>
    refine ⟨(nomatch ·), fun h => absurd ?_ hb⟩
    simpa [h, hwide] using hx

/-- A one-byte word decodes through the value of its field. -/
theorem narrowByte_map_eq_ok {n : Nat} (hn : n ≤ 8) {b : Byte} {g : BitVec n → Instr} {i : Instr} :
    (narrowByte n b).map g = .ok i ↔ ∃ x : BitVec n, b = x.setWidth 8 ∧ g x = i := by
  simp only [← narrowByte_eq_ok hn]
  cases narrowByte n b <;> simp [Except.map]

/-- The words that are operations, format by format, and the operation each stands for (R74 to R77). -/
inductive WordOf : Format → List Byte → Instr → Prop
  | dcode (d : BitVec 4) : WordOf .dcode [d.setWidth 8] (decodeDcode d)
  | pos (p : BitVec 2) : WordOf .pos [p.setWidth 8] (decodePos p)
  | sel (x : BitVec 3) : WordOf .sel [x.setWidth 8] (decodeSel x)
  | frame (a b : Byte) : WordOf .frame [a, b] (.emit a b)

theorem decode_of_wordOf {f : Format} {bytes : List Byte} {i : Instr} (h : WordOf f bytes i) : decode f bytes = .ok i := by
  cases h with
  | dcode d => exact (narrowByte_map_eq_ok (by decide)).mpr ⟨d, rfl, rfl⟩
  | pos p => exact (narrowByte_map_eq_ok (by decide)).mpr ⟨p, rfl, rfl⟩
  | sel x => exact (narrowByte_map_eq_ok (by decide)).mpr ⟨x, rfl, rfl⟩
  | frame a b => rfl

/-- Nothing else decodes (entry 14). -/
theorem wordOf_of_decode {f : Format} {bytes : List Byte} {i : Instr} (h : decode f bytes = .ok i) : WordOf f bytes i := by
  cases f with
  | dcode =>
    simp only [decode] at h
    split at h
    next => obtain ⟨d, rfl, rfl⟩ := (narrowByte_map_eq_ok (by decide)).mp h; exact .dcode d
    next => cases h
  | pos =>
    simp only [decode] at h
    split at h
    next => obtain ⟨p, rfl, rfl⟩ := (narrowByte_map_eq_ok (by decide)).mp h; exact .pos p
    next => cases h
  | sel =>
    simp only [decode] at h
    split at h
    next => obtain ⟨x, rfl, rfl⟩ := (narrowByte_map_eq_ok (by decide)).mp h; exact .sel x
    next => cases h
  | frame =>
    simp only [decode] at h
    split at h
    next => cases h; exact .frame _ _
    next => cases h
  | segp | dselp | evt => cases h

/-- The digit codes 10 and 11 are read as their reserved row, with the whole code (R84). -/
theorem decodeDcode_reserved10_11 : ∀ d : BitVec 4, (Instr.dcodeReserved10_11 d).wf = true → decodeDcode d = .dcodeReserved10_11 d := by
  decide

/-- The digit codes 12 to 15 are read as theirs (R84). -/
theorem decodeDcode_reserved12_15 : ∀ d : BitVec 4, (Instr.dcodeReserved12_15 d).wf = true → decodeDcode d = .dcodeReserved12_15 d := by
  decide

/-- A well-formed operation with a bit pattern is what its encoding stands for (R83, R84). -/
theorem wordOf_encode {i : Instr} (hwf : i.wf = true) (hf : i.format ≠ .evt) : WordOf i.format (encodeBytes i) i := by
  cases i with
  | seg0 => exact .dcode 0#4
  | seg1 => exact .dcode 1#4
  | seg2 => exact .dcode 2#4
  | seg3 => exact .dcode 3#4
  | seg4 => exact .dcode 4#4
  | seg5 => exact .dcode 5#4
  | seg6 => exact .dcode 6#4
  | seg7 => exact .dcode 7#4
  | seg8 => exact .dcode 8#4
  | seg9 => exact .dcode 9#4
  | dcodeReserved10_11 d =>
    have h := WordOf.dcode d
    rwa [decodeDcode_reserved10_11 d hwf] at h
  | dcodeReserved12_15 d =>
    have h := WordOf.dcode d
    rwa [decodeDcode_reserved12_15 d hwf] at h
  | dsel0 => exact .pos 0#2
  | dsel1 => exact .pos 1#2
  | dsel2 => exact .pos 2#2
  | dsel3 => exact .pos 3#2
  | t0 => exact .sel 0#3
  | t1 => exact .sel 1#3
  | t2 => exact .sel 2#3
  | t3 => exact .sel 3#3
  | v0 => exact .sel 4#3
  | v1 => exact .sel 5#3
  | v2 => exact .sel 6#3
  | v3 => exact .sel 7#3
  | emit a b => exact .frame a b
  | forceDp | latchLo | dataBit | clkLo | clkHi | latchHi | gate | idxAdv | refresh | tick1s | tick2ms | sampleReset | sampleMode
  | scale | clamp | por => exact absurd rfl hf

/-- Settles O2: the encoding of an operation is a word of its format, and a word decodes to the operation it stands for. -/
theorem decodeOfEncode : Obligations.DecodeOfEncode :=
  fun _ hwf hf => decode_of_wordOf (wordOf_encode hwf hf)

/-- Every digit code is the encoding of the well-formed operation read from it (R74, R84). -/
theorem encode_decodeDcode (d : BitVec 4) : encode (decodeDcode d) = (.dcode, [d.setWidth 8]) ∧ (decodeDcode d).wf = true := by
  revert d; decide

/-- Every position is (R75). -/
theorem encode_decodePos (p : BitVec 2) : encode (decodePos p) = (.pos, [p.setWidth 8]) ∧ (decodePos p).wf = true := by
  revert p; decide

/-- Every selector is (R76). -/
theorem encode_decodeSel (x : BitVec 3) : encode (decodeSel x) = (.sel, [x.setWidth 8]) ∧ (decodeSel x).wf = true := by
  revert x; decide

/-- A word is the encoding of the well-formed operation it stands for (R74 to R77, R83). -/
theorem encode_of_wordOf {f : Format} {bytes : List Byte} {i : Instr} (h : WordOf f bytes i) :
    encode i = (f, bytes) ∧ i.wf = true := by
  cases h with
  | dcode d => exact encode_decodeDcode d
  | pos p => exact encode_decodePos p
  | sel x => exact encode_decodeSel x
  | frame a b => exact ⟨rfl, rfl⟩

/-- Settles O3: bytes that decode are a word of the format, hence an encoding; the format is the encoding's first part. -/
theorem encodeOfDecode : Obligations.EncodeOfDecode := by
  intro f bytes i h
  obtain ⟨henc, hwf⟩ := encode_of_wordOf (wordOf_of_decode h)
  exact ⟨henc, hwf, congrArg Prod.fst henc⟩

/-- Settles O1: each is a word of its format, by the field's value. -/
theorem wordsOfTheFormatsDecode : Obligations.WordsOfTheFormatsDecode :=
  ⟨decode_of_wordOf (.dcode 2#4), decode_of_wordOf (.dcode 9#4), decode_of_wordOf (.dcode 11#4), decode_of_wordOf (.dcode 14#4),
    decode_of_wordOf (.pos 1#2), decode_of_wordOf (.sel 3#3), decode_of_wordOf (.sel 4#3), decode_of_wordOf (.frame 0x24#8 0xF2#8)⟩

/-- Settles O4: the three formats are refused before the bytes are looked at. -/
theorem patternsAndEventsDoNotDecode : Obligations.PatternsAndEventsDoNotDecode :=
  fun _ => ⟨rfl, rfl, rfl⟩

/-! ### A step on a bare word -/

/-- Settles O5: the word is taken off the trace and decoded, and what it decodes to runs. -/
theorem stepRunsTheDecodedWord : Obligations.StepRunsTheDecodedWord := by
  intro s f bytes rest i htr hi
  rw [step_of_cons htr, runEvent, hi]

/-- A word of the opcode table is read as the decoder reads its format and bytes (entry 13). -/
theorem decodeTableWord_eq_some {nbits w : Nat} {i : Instr} :
    decodeTableWord nbits w = some i ↔ decode (tableCode nbits w).1 (tableCode nbits w).2 = .ok i := by
  unfold decodeTableWord
  cases decode (tableCode nbits w).1 (tableCode nbits w).2 <;> simp

/-- Settles O6: the table's word stands first in the trace, and taking it off gives the very state back. -/
theorem stepRunsTheTableWord : Obligations.StepRunsTheTableWord := by
  intro s nbits w i hi
  exact stepRunsTheDecodedWord (s.withFetchWord nbits w) _ _ s.trace i rfl (decodeTableWord_eq_some.mp hi)

/-- Settles O11: either reserved row stops without looking at the state (D5). -/
theorem reservedDigitCodesFault : Obligations.ReservedDigitCodesFault :=
  fun _ _ => ⟨rfl, rfl⟩

/-! ### The receiver of one frame -/

/-- Settles O21: the receiver collects one bit at each clock pulse between the two LATCH writes. -/
theorem receiverRecoversOneFrame : Obligations.ReceiverRecoversOneFrame :=
  Receiver.seeAll_emitWrites

/-! ### The point and the colon -/

/-- Where the table's entries keep the point off, bit 7 of a pattern is low exactly in the masked form (R100 (a), R111). -/
theorem segPattern_getLsbD_seven {c : Config} (hoff : ∀ d : Fin 10, (c.segLut[d]).getLsbD 7 = true) (hmask : c.dpMask = 0x7F#8)
    (d : Fin 10) (point : Bool) : (segPattern c d point).getLsbD 7 = !point := by
  cases point
  · exact hoff d
  · simp [segPattern, forcePoint, hmask]

/-- Every entry of the default table keeps the point off (R100 (a); D3). -/
theorem segLutDefault_pointOff : ∀ d : Fin 10, (segLutDefault[d]).getLsbD 7 = true := by decide

/-- A digit operation that completes leaves the pattern of a digit, masked for `T1` and `V0` only (R82). -/
theorem execWith_digitOps_snapSeg {c : Config} {i : Instr} (hi : i ∈ digitOps) {s t : State} (h : execWith c i s = .next t) :
    ∃ d : Fin 10, t.snapSeg = segPattern c d (decide (i = .t1 ∨ i = .v0)) := by
  simp only [digitOps, List.mem_cons, List.not_mem_nil, or_false] at hi
  rcases hi with rfl | rfl | rfl | rfl | rfl | rfl | rfl | rfl
  all_goals
    obtain ⟨d, _, rfl⟩ := showDigit_eq_next h
    exact ⟨d, rfl⟩

/-- Settles O27: bit 7 of the pattern left is low where the operation masks it, and the table's own high bit elsewhere. -/
theorem pointLitForColonAndVoltsOnly : Obligations.PointLitForColonAndVoltsOnly := by
  intro s t i hi h
  rw [← execWith_config] at h
  obtain ⟨d, hd⟩ := execWith_digitOps_snapSeg hi h
  rw [hd, segPattern_getLsbD_seven (c := config) segLutDefault_pointOff config_dpMask, Bool.not_eq_false', decide_eq_true_iff]

end Sys2Proof.Machine

/-! ## The Segment Encoder: the tables, the point, the machine's configuration -/

namespace Sys2Proof.Machine

/-! ### SCALE_MV -/

/-- The ratio 0 scales to 0 millivolts (R206). -/
theorem scaleExact_zero (vref : Ratio) (mvPerV den : Nat) : scaleExact vref mvPerV ⟨0, den⟩ = 0 := by
  simp [scaleExact]

/-- The ratio 1, however it is written, scales to the reference voltage itself (R206). -/
theorem scaleExact_one (vref : Ratio) (mvPerV : Nat) {den : Nat} (h : 0 < den) :
    scaleExact vref mvPerV ⟨den, den⟩ = vref.num * mvPerV / vref.den := by
  rw [scaleExact, Nat.mul_assoc, Nat.mul_div_mul_left _ _ h]

/-- A larger ratio never scales to fewer millivolts, at any reference voltage: over the common denominator the numerators are ordered (R206). -/
theorem scaleExact_mono (vref : Ratio) (mvPerV : Nat) {a b : Ratio} (ha : 0 < a.den) (hb : 0 < b.den) (hab : a.le b) :
    scaleExact vref mvPerV a ≤ scaleExact vref mvPerV b := by
  have hnum : a.num * b.den * (vref.num * mvPerV) ≤ b.num * a.den * (vref.num * mvPerV) := Nat.mul_le_mul_right _ hab
  calc scaleExact vref mvPerV a
      = a.num * vref.num * mvPerV * b.den / (a.den * vref.den * b.den) := (Nat.mul_div_mul_right _ _ hb).symm
    _ = a.num * b.den * (vref.num * mvPerV) / (a.den * vref.den * b.den) := by ring_nf
    _ ≤ b.num * a.den * (vref.num * mvPerV) / (a.den * vref.den * b.den) := Nat.div_le_div_right hnum
    _ = b.num * vref.num * mvPerV * a.den / (b.den * vref.den * a.den) := by ring_nf
    _ = scaleExact vref mvPerV b := Nat.mul_div_mul_right _ _ ha

/-! ### The two tables -/

/-- The entries of the default segment table differ from each other (R100 (b); D3). -/
theorem segLutDefault_injective : ∀ d e : Fin 10, segLutDefault[d] = segLutDefault[e] → d = e := by decide

/-- The entries of the default digit-select table differ from each other (R112 (a); D4). -/
theorem dselLutDefault_injective : ∀ i j : Fin 4, dselLutDefault[i] = dselLutDefault[j] → i = j := by decide

/-- Settles O14: the sizes and limits are the record's own values, the tables' contracts are facts about their entries, and the scaling is the exact
product at 33/10 volts and 1000 millivolts a volt. -/
theorem configurationMeetsItsContracts : Obligations.ConfigurationMeetsItsContracts where
  nDigitsIs := rfl
  nCodesIs := rfl
  patternBitsIs := rfl
  frameBitsIs := rfl
  counterBitsIs := rfl
  vrefIs := rfl
  mvPerVIs := rfl
  pointOff := segLutDefault_pointOff
  segDistinct := segLutDefault_injective
  dselDistinct := dselLutDefault_injective
  maskIs := rfl
  wrapIs := rfl
  mvMaxIs := rfl
  scaleZero den _ := scaleExact_zero _ _ den
  scaleOne _ h := scaleExact_one _ _ h
  scaleMonotone _ _ ha hb hab := scaleExact_mono _ _ ha hb hab

/-- A digit code returns the default table's entry (R101 to R110; D3). -/
theorem exec_decodeDcode (d : Fin 10) (s : State) :
    exec (decodeDcode (BitVec.ofNat 4 d.val)) s = .next { s with result := segLutDefault[d] } := by
  rw [← execWith_config, execWith_decodeDcode, returnSeg_of_lt, config_segLut]

/-- A position code returns the default table's entry (R113 to R116; D4). -/
theorem exec_decodePos (i : Fin 4) (s : State) :
    exec (decodePos (BitVec.ofNat 2 i.val)) s = .next { s with result := dselLutDefault[i] } := by
  rw [← execWith_config, execWith_decodePos, returnDsel, encDsel_eq, config_dselLut]

/-- Settles O10: the ten operations are the ten digit codes. -/
theorem segmentOperationsReturnTheTable : Obligations.SegmentOperationsReturnTheTable := by
  intro s
  have code := fun d => exec_decodeDcode d s
  exact ⟨code 0, code 1, code 2, code 3, code 4, code 5, code 6, code 7, code 8, code 9⟩

/-- Settles O13: the four operations are the four position codes. -/
theorem digitSelectOperationsReturnTheTable : Obligations.DigitSelectOperationsReturnTheTable := by
  intro s
  have code := fun i => exec_decodePos i s
  exact ⟨code 0, code 1, code 2, code 3⟩

/-! ### FORCE_DP -/

/-- `FORCE_DP` returns the masked pattern (R111). -/
theorem exec_forceDp (p : Byte) (s : State) : exec (.forceDp p) s = .next { s with result := forcePoint config p } := rfl

/-- The bits of a masked pattern: bits 0 to 6 are the pattern's, bit 7 is low (R111). -/
theorem forcePoint_config_getLsbD (p : Byte) (j : Nat) :
    (forcePoint config p).getLsbD j = (p.getLsbD j && decide (j < 7)) := by
  have hmask : (0x7F#8).getLsbD j = decide (j < 7) := by
    by_cases hj : j < 8
    · interval_cases j <;> rfl
    · rw [BitVec.getLsbD_of_ge _ _ (by omega), decide_eq_false (by omega)]
  rw [forcePoint, config_dpMask, BitVec.getLsbD_and, hmask]

/-- A pattern whose point is already lit is its own masked form (R111). -/
theorem forcePoint_config_of_lit {p : Byte} (h : p.getLsbD 7 = false) : forcePoint config p = p := by
  refine BitVec.eq_of_getLsbD_eq fun j hj => ?_
  rw [forcePoint_config_getLsbD]
  obtain hlow | rfl : j < 7 ∨ j = 7 := by omega
  · rw [decide_eq_true hlow, Bool.and_true]
  · rw [h, Bool.false_and]

/-- Settles O12: the byte returned is the masked pattern, known bit by bit; its point is lit, so masking it again gives it back. -/
theorem forceDpClearsOnlyBitSeven : Obligations.ForceDpClearsOnlyBitSeven := by
  intro s p
  have hlit : (forcePoint config p).getLsbD 7 = false :=
    (forcePoint_config_getLsbD p 7).trans (Bool.and_false _)
  refine ⟨forcePoint config p, exec_forceDp p s, hlit, fun j hj => ?_, forcePoint_config_of_lit, ?_⟩
  · rw [forcePoint_config_getLsbD, decide_eq_true hj, Bool.and_true]
  · rw [exec_forceDp, forcePoint_config_of_lit hlit]

end Sys2Proof.Machine

/-! ## The Shift-Register Driver: the five micro-operations, one EMIT as a whole and as fifty steps, the outputs -/

namespace Sys2Proof.Machine

/-! ### One pin write -/

/-- Settles O16: each operation is its pin write and its move of `ser_pos`; for `LATCH_LO` the test of `ser_pos` decides. -/
theorem microOperationsMakeOnePinWrite : Obligations.MicroOperationsMakeOnePinWrite := by
  intro s
  exact ⟨fun h0 => if_pos h0, fun h0 => if_neg h0, fun _ => rfl, rfl, rfl, rfl⟩

/-- In phase EMIT the serializer selects, from the two bytes prepared (R135). -/
theorem select_of_emit {s : State} (he : s.mainPhase = .emit) :
    select s = serializerOp (frameOf s.snapSeg s.snapDsel) s.serPos.toNat := by
  simp only [select, he]

/-- After the fiftieth write there is none to select (R135; entry 30). -/
theorem serializerOp_of_gt (f : Word16) {p : Nat} (h : 49 < p) : serializerOp f p = none := by
  rw [serializerOp, if_neg (by omega), if_neg (by omega), if_neg (by omega)]

/-- The bits of a frame by its two bytes, each from bit 7 down to bit 0 (R77, R132). -/
theorem frameBit_frameOf_of_lt (a b : Byte) {k : Nat} (hk : k < 16) :
    frameBit (frameOf a b) k = if k < 8 then a.getLsbD (7 - k) else b.getLsbD (15 - k) := by
  rw [frameBit_frameOf]
  by_cases h : k < 8
  · rw [if_neg (by omega), if_pos h, show 15 - k - 8 = 7 - k by omega]
  · rw [if_pos (by omega), if_neg h]

/-- Settles O17: row by row of R135's table, from what the serializer selects at each position. -/
theorem serialPositionSelectsThePinWrite : Obligations.SerialPositionSelectsThePinWrite := by
  intro s he
  rw [select_of_emit he]
  refine ⟨fun h => by rw [h]; rfl, fun k hk => ⟨fun h => ?_, fun h => ?_, fun h => ?_⟩, fun h => by rw [h]; rfl,
    serializerOp_of_gt _⟩
  · rw [h, serializerOp_data _ hk, frameBit_frameOf_of_lt _ _ hk]
  · rw [h, serializerOp_low _ hk]
  · rw [h, serializerOp_high _ hk]

/-! ### One EMIT -/

/-- Settles O18: an EMIT with none in progress completes, and leaves the frame in the chain and at its outputs. -/
theorem emitDeliversTheFrame : Obligations.EmitDeliversTheFrame :=
  fun _ _ _ h0 => execEmit_eq_next.mpr ⟨h0, rfl⟩

/-- A run with one step more, put at its end. -/
theorem runSteps_succ (n : Nat) (s : State) : runSteps (n + 1) s = andThen (runSteps n s) step := by
  induction n generalizing s with
  | zero =>
    show andThen (step s) .next = step s
    cases step s <;> rfl
  | succ n ih =>
    calc runSteps (n + 2) s
        = andThen (step s) fun t => andThen (runSteps n t) step := congrArg (andThen (step s)) (funext ih)
      _ = andThen (runSteps (n + 1) s) step := (andThen_assoc _ _ _).symm

/-- One pin write more, at the end of a list of them. -/
theorem pinWrites_take_succ {ws : List (Line × Bool)} {p : Nat} (hp : p < ws.length) (s : State) :
    pinWrites (ws.take (p + 1)) s = pinWrite ws[p].1 ws[p].2 (pinWrites (ws.take p) s) := by
  rw [List.take_succ_eq_append_getElem hp, pinWrites_append, pinWrites_cons, pinWrites_nil]

/-- The state inside an EMIT after its first `p` pin writes, from the state before it (R27, R135). -/
def afterWrites (p : Nat) (s : State) : State :=
  setSerPos (BitVec.ofNat 6 p) (pinWrites ((emitWrites s.snapSeg s.snapDsel).take p) s)

@[simp] theorem afterWrites_serPos (p : Nat) (s : State) : (afterWrites p s).serPos = BitVec.ofNat 6 p := rfl

@[simp] theorem afterWrites_mainPhase (p : Nat) (s : State) : (afterWrites p s).mainPhase = s.mainPhase := by simp [afterWrites]

@[simp] theorem afterWrites_trace (p : Nat) (s : State) : (afterWrites p s).trace = s.trace := by simp [afterWrites]

/-- From the start of an EMIT, each step of MAIN makes the next of the forty-nine writes before the latch (R135). -/
theorem runSteps_of_emit {s : State} (he : s.mainPhase = .emit) (h0 : s.serPos = 0#6) (htr : s.trace = []) {p : Nat}
    (hp : p ≤ 49) : runSteps p s = .next (afterWrites p s) := by
  induction p with
  | zero => rw [runSteps, afterWrites, List.take_zero, pinWrites_nil, ← h0]; rfl
  | succ p ih =>
    have hpos : (afterWrites p s).serPos.toNat = p := by rw [afterWrites_serPos]; bv_omega
    rw [runSteps_succ, ih (by omega), andThen_of_next, step_of_empty (by rw [afterWrites_trace, htr]), ← execWith_config,
      mainStep_emit config (by rw [afterWrites_mainPhase, he]) (by omega)]
    have hlen : p < (emitWrites s.snapSeg s.snapDsel).length := by rw [emitWrites_length]; omega
    simp only [hpos]
    simp [afterWrites, pinWrites_take_succ hlen, BitVec.ofNat_add]

/-- Settles O20: forty-nine steps make the writes before the latch, and the fiftieth latches and leaves phase EMIT. -/
theorem fiftyMainStepsAreOneEmit : Obligations.FiftyMainStepsAreOneEmit := by
  intro s he h0 htr
  have hemit : exec (.emit s.snapSeg s.snapDsel) s = .next (setSerPos 0#6 (pinWrites (emitWrites s.snapSeg s.snapDsel) s)) :=
    if_pos h0
  rw [runSteps_succ, runSteps_of_emit he h0 htr (Nat.le_refl 49), andThen_of_next,
    step_of_empty (by rw [afterWrites_trace, htr]), ← execWith_config,
    mainStep_emit_last config (by rw [afterWrites_mainPhase, he]) rfl, execWith_config, hemit, andThen_of_next,
    emitWrites_eq_take_append, pinWrites_append]
  simp [afterWrites]

/-! ### The outputs -/

/-- A pin write other than LATCH high leaves the outputs alone (R141). -/
theorem pinWrite_out_of_ne {w : Line × Bool} (h : w ≠ (.latch, true)) (s : State) : (pinWrite w.1 w.2 s).out = s.out := by
  obtain ⟨l, b⟩ := w
  cases l with
  | data => simp [pinWrite_data]
  | clk => simp
  | latch =>
    obtain rfl : b = false := by simpa using h
    simp [pinWrite_latch_low]

/-- The only step of MAIN that leaves phase EMIT is the fiftieth write (R29, R135). -/
theorem serPos_of_mainStep_leaves_emit {c : Config} {s t : State} (hs : s.mainPhase = .emit)
    (ht : mainStep s (execWith c) = .next t) (hleft : t.mainPhase ≠ .emit) : s.serPos = 49#6 := by
  have hle := serPos_le_of_mainStep_emit hs ht
  have hlast : ¬ s.serPos.toNat < 49 := by
    intro hlt
    cases (mainStep_emit c hs hlt).symm.trans ht
    exact hleft (by simpa using hs)
  bv_omega

/-- The outputs of the chain and the frames latched are the same in both states. -/
def SameOutputs (s t : State) : Prop := t.out = s.out ∧ t.frameTrace = s.frameTrace

/-- From `s` to `t` the fiftieth write of an EMIT has latched the sixteen stages at once (R138, R141). -/
def LatchedFrom (s t : State) : Prop :=
  s.mainPhase = .emit ∧ s.serPos = 49#6 ∧ t.out = s.sr ∧ t.frameTrace = s.frameTrace ++ [s.sr]

/-- A step of MAIN latches, in the fiftieth write of an EMIT, or leaves the outputs alone; with LATCH already high that write is no edge (R142). -/
theorem mainStep_outputs {c : Config} {s t : State} (ht : mainStep s (execWith c) = .next t) :
    SameOutputs s t ∨ LatchedFrom s t := by
  cases mainStep_move ht with
  | write hs hp hw => exact .inl ⟨by simp [pinWrite_out_of_ne hw], by simp [pinWrite_frameTrace_of_ne hw]⟩
  | latch hs =>
    have h49 := serPos_of_mainStep_leaves_emit hs ht (by simp)
    cases hl : s.latch with
    | false => exact .inr ⟨hs, h49, by simp [pinWrite_latch_rise hl], by simp [pinWrite_latch_rise hl]⟩
    | true => exact .inl ⟨by simp [pinWrite_latch_high true hl], by simp [pinWrite_latch_high true hl]⟩
  | sampleReset | sampleMode | gate | scale | clamp | digit | advance => exact .inl ⟨rfl, rfl⟩

/-- No agent but MAIN touches the outputs (R145, R274). -/
theorem runEvent_outputs {c : Config} {e : Event} (he : e.oneAgentStep = true) {s t : State}
    (ht : runEvent e s (execWith c) = .next t) : SameOutputs s t ∨ LatchedFrom s t := by
  cases e with
  | tick1s | tick2ms | btnReset | btnMode => cases ht; exact .inl ⟨rfl, rfl⟩
  | pot r =>
    simp only [runEvent] at ht
    split at ht
    next => cases ht; exact .inl ⟨rfl, rfl⟩
    next => cases ht
  | main => exact mainStep_outputs ht
  | por | loop | loopTimes | word => cases he

/-- Settles O22: whichever agent moves, the step leaves the outputs alone or is the latch that ends an EMIT. -/
theorem outputsChangeOnlyAtTheLatch : Obligations.OutputsChangeOnlyAtTheLatch := by
  intro s t hone ht hchanged
  have hstep : SameOutputs s t ∨ LatchedFrom s t := by
    rw [← stepWith_config, stepWith] at ht
    cases htr : s.trace with
    | nil => exact mainStep_outputs (systemStep_of_empty htr ▸ ht)
    | cons e rest =>
      exact runEvent_outputs (s := { s with trace := rest }) (hone e rest htr) (systemStep_of_cons htr ▸ ht)
  obtain ⟨hout, hframes⟩ | hlatched := hstep
  · exact (hchanged.elim (· hout) (· hframes)).elim
  · exact hlatched

end Sys2Proof.Machine

/-! ## The Display Multiplexer: the gate, the digit of a position, one REFRESH, the iteration that serves it, the machine that never stops -/

namespace Sys2Proof.Machine

/-! ### The gate and the eight digit operations -/

/-- Settles O23: the flag's value decides between the two branches of the test-and-clear. -/
theorem gateTestsAndClearsTheFlag : Obligations.GateTestsAndClearsTheFlag := by
  intro s
  exact ⟨fun hs => by simp only [select, hs], fun hset => if_pos hset, fun hclear => if_neg (by simp [hclear])⟩

/-- Settles O24: on the legal counter values each digit is in the table, so its lookup gives the entry. -/
theorem timeOperationsShowTheirDigit : Obligations.TimeOperationsShowTheirDigit := by
  refine ⟨⟨decode_of_wordOf (.sel 0#3), decode_of_wordOf (.sel 1#3), decode_of_wordOf (.sel 2#3), decode_of_wordOf (.sel 3#3)⟩,
    fun s hs => ?_⟩
  have h0 : s.counter.toNat / 60 / 10 < 10 := by omega
  have h1 : s.counter.toNat / 60 % 10 < 10 := by omega
  have h2 : s.counter.toNat % 60 / 10 < 10 := by omega
  have h3 : s.counter.toNat % 60 % 10 < 10 := by omega
  exact ⟨⟨_, h0⟩, ⟨_, h1⟩, ⟨_, h2⟩, ⟨_, h3⟩, rfl, rfl, rfl, rfl,
    showDigit_of_lt config ⟨_, h0⟩ 0#2 false s, showDigit_of_lt config ⟨_, h1⟩ 1#2 true s,
    showDigit_of_lt config ⟨_, h2⟩ 2#2 false s, showDigit_of_lt config ⟨_, h3⟩ 3#2 false s⟩

/-- Settles O25: on the clamped millivolt values too. -/
theorem voltageOperationsShowTheirDigit : Obligations.VoltageOperationsShowTheirDigit := by
  refine ⟨⟨decode_of_wordOf (.sel 4#3), decode_of_wordOf (.sel 5#3), decode_of_wordOf (.sel 6#3), decode_of_wordOf (.sel 7#3)⟩,
    fun s hs => ?_⟩
  have h0 : s.mv / 1000 < 10 := by omega
  have h1 : s.mv % 1000 / 100 < 10 := by omega
  have h2 : s.mv % 1000 / 10 % 10 < 10 := by omega
  have h3 : s.mv % 1000 % 10 < 10 := by omega
  exact ⟨⟨_, h0⟩, ⟨_, h1⟩, ⟨_, h2⟩, ⟨_, h3⟩, rfl, rfl, rfl, rfl,
    showDigit_of_lt config ⟨_, h0⟩ 0#2 true s, showDigit_of_lt config ⟨_, h1⟩ 1#2 false s,
    showDigit_of_lt config ⟨_, h2⟩ 2#2 false s, showDigit_of_lt config ⟨_, h3⟩ 3#2 false s⟩

/-- The four frames of 9.999, from the default tables (R180; D3, D4). -/
theorem frames_of_nines :
    frameOf (config.segLut[(9 : Fin 10)] &&& 0x7F#8) config.dselLut[0] = 0x10F1#16 ∧
    frameOf config.segLut[(9 : Fin 10)] config.dselLut[1] = 0x90F2#16 ∧
    frameOf config.segLut[(9 : Fin 10)] config.dselLut[2] = 0x90F4#16 ∧
    frameOf config.segLut[(9 : Fin 10)] config.dselLut[3] = 0x90F8#16 := by decide

/-- Settles O31: the clamp leaves 9999, whose four digits are all 9. -/
theorem overrangeDisplaysNines : Obligations.OverrangeDisplaysNines := by
  intro s hraw
  have hclamped : min s.mvRaw 9999 = 9999 := Nat.min_eq_right hraw
  obtain ⟨d0, d1, d2, d3, h0, h1, h2, h3, hv0, hv1, hv2, hv3⟩ :=
    voltageOperationsShowTheirDigit.2 { s with mv := min s.mvRaw 9999 } (Nat.min_le_right _ _)
  simp only [hclamped] at h0 h1 h2 h3
  obtain rfl : d0 = 9 := Fin.ext h0
  obtain rfl : d1 = 9 := Fin.ext h1
  obtain rfl : d2 = 9 := Fin.ext h2
  obtain rfl : d3 = 9 := Fin.ext h3
  obtain ⟨f0, f1, f2, f3⟩ := frames_of_nines
  exact ⟨_, _, _, _, _, rfl, hv0, f0, hv1, f1, hv2, f2, hv3, f3⟩

/-! ### The rotation -/

/-- `IDX_ADV` is selected in phase ADVANCE only: the other phases select samples, the gate, COMPUTE's operations and pin writes (R29, R79). -/
theorem select_eq_idxAdv {s : State} : select s = some .idxAdv ↔ s.mainPhase = .advance := by
  refine ⟨fun h => ?_, fun h => by simp only [select, h]⟩
  cases hs : s.mainPhase with
  | advance => rfl
  | gate => simp [select, hs] at h
  | sample =>
    simp only [select, hs] at h
    split at h <;> cases h
  | compute =>
    simp only [select, hs] at h
    split at h
    · cases h
    split at h
    · cases h
    · have hdigit := decodeSel_mem_digitOps (selectorOf s)
      rw [Option.some.inj h] at hdigit
      exact absurd hdigit (by decide)
  | emit =>
    rw [select_of_emit hs] at h
    rcases serializerOp_cases h with ⟨_, hi⟩ | ⟨_, hi⟩ | ⟨k, _, ⟨_, hi⟩ | ⟨_, hi⟩ | ⟨_, hi⟩⟩
    all_goals cases hi

/-- MAIN comes to ADVANCE by the last write of an EMIT and by nothing else (R29, R136). -/
theorem select_of_mainStep_enters_advance {c : Config} {s t : State} (hs : s.mainPhase ≠ .advance)
    (ht : mainStep s (execWith c) = .next t) (hadv : t.mainPhase = .advance) : select s = some .latchHi := by
  cases mainStep_move ht with
  | latch he =>
    rw [select_of_emit he, serPos_of_mainStep_leaves_emit he ht (by simp)]
    rfl
  | sampleReset | scale | clamp => exact absurd hadv hs
  | write => exact absurd (by rwa [setSerPos_mainPhase, pinWrite_mainPhase] at hadv) hs
  | gate => split at hadv <;> cases hadv
  | sampleMode | digit | advance => cases hadv

/-- Settles O28: what is selected, what the last write of an EMIT leads to, the sum in two bits, and the owners of the index. -/
theorem idxAdvRotatesTheIndex : Obligations.IdxAdvRotatesTheIndex := by
  refine ⟨fun s => ⟨select_eq_idxAdv, fun h => ?_, fun t hs ht hadv => ?_, _, rfl, BitVec.toNat_add _ _, rfl⟩, fun s t i h => ?_⟩
  · exact ⟨_, mainStep_of_select h, rfl, pinWrite_idx .latch true s⟩
  · rw [← execWith_config] at ht
    exact select_of_mainStep_enters_advance hs ht hadv
  · obtain ⟨_, _, hidx, _⟩ := onlyTheOwnersWriteEachRegister s t i h
    exact hidx

/-! ### One REFRESH -/

/-- The state from which COMPUTE takes its digit: in voltage mode the potentiometer has been sampled, scaled and clamped (R169). -/
def measured (c : Config) (s : State) : State :=
  { s with
    mvRaw := if s.modeVoltage then c.scaleMv s.pot else s.mvRaw
    mv := if s.modeVoltage then clampMv c (c.scaleMv s.pot) else s.mv }

/-- The state after the pattern `p` of digit `d` has been served at the current position. -/
def afterServing (c : Config) (d : Nat) (p : Byte) (s : State) : State :=
  { afterEmit p (encDsel c s.idx) s with
    snapDigit := BitVec.ofNat 4 d, snapSeg := p, snapDsel := encDsel c s.idx
    idx := s.idx + 1#2, mainPhase := .sample, phasePos := 0#2 }

/-- An EMIT with none in progress completes (R130). -/
theorem execEmit_of_serPos_zero {a b : Byte} {s : State} (h0 : s.serPos = 0#6) : execEmit a b s = .next (afterEmit a b s) :=
  execEmit_eq_next.mpr ⟨h0, rfl⟩

/-- On the legal counter values `REFRESH` serves the mode's digit, which is in the table (R176, R177). -/
theorem execRefresh_of_le {c : Config} (hl : c.mvMax = 9999) {s : State} (hn : s.counter.toNat ≤ 5999) (h0 : s.serPos = 0#6) :
    ∃ d : Fin 10, d.val = digitShown s.modeVoltage s.idx s.counter.toNat (measured c s).mv ∧
      execRefresh s c = .next (afterServing c d.val (segPattern c d (pointForced s.modeVoltage s.idx)) (measured c s)) := by
  obtain ⟨u, hu⟩ := compute_completes hl hn
  obtain ⟨d, hd, rfl⟩ := compute_eq_next hu
  refine ⟨d, hd, ?_⟩
  rw [execRefresh, hu, andThen_of_next, execEmit_of_serPos_zero]
  · rfl
  · exact h0

/-- Settles O29: on the legal counter values the digit is in the table, and the state after serving it lists what changed. -/
theorem refreshServesOnePosition : Obligations.RefreshServesOnePosition := by
  intro s hn h0
  obtain ⟨d, hd, hx⟩ := execRefresh_of_le config_mvMax hn h0
  refine ⟨d, (measured config s).mvRaw, (measured config s).mv, rfl, ?_, hd, hx⟩
  cases hm : s.modeVoltage <;> simp [measured, hm, clampMv]

/-! ### What a REFRESH does not read -/

/-- A time digit is the digit computation at the current position (R80, R165 to R168). -/
theorem computeTime_eq_showDigit (c : Config) (s : State) :
    computeTime s c = showDigit c (digitShown false s.idx s.counter.toNat s.mv) s.idx (pointForced false s.idx) s := by
  rcases idx_cases s.idx with hi | hi | hi | hi
  all_goals
    simp only [computeTime, hi]
    rfl

/-- So is a voltage digit (R81, R170 to R173). -/
theorem voltageDigit_eq_showDigit (c : Config) (s : State) :
    voltageDigit s c = showDigit c (digitShown true s.idx s.counter.toNat s.mv) s.idx (pointForced true s.idx) s := by
  rcases idx_cases s.idx with hi | hi | hi | hi
  all_goals
    simp only [voltageDigit, hi]
    rfl

/-- In time mode nothing is sampled. -/
theorem measured_of_time (c : Config) {s : State} (hm : s.modeVoltage = false) : measured c s = s := by
  have hm : ¬ s.modeVoltage = true := by simp [hm]
  rw [measured, if_neg hm, if_neg hm]

/-- In voltage mode the earlier millivolt values are overwritten (R169). -/
theorem measured_of_voltage (c : Config) {s : State} (hm : s.modeVoltage = true) :
    measured c s = { s with mvRaw := c.scaleMv s.pot, mv := clampMv c (c.scaleMv s.pot) } := by
  rw [measured, if_pos hm, if_pos hm]

/-- COMPUTE is one digit computation, of the mode's digit at the current position (R82, R176). -/
theorem compute_eq_showDigit (c : Config) (s : State) :
    compute s c = showDigit c (digitShown s.modeVoltage s.idx s.counter.toNat (measured c s).mv) s.idx
      (pointForced s.modeVoltage s.idx) (measured c s) := by
  cases hm : s.modeVoltage with
  | false =>
    rw [measured_of_time c hm, compute, if_neg (by simp [hm])]
    exact computeTime_eq_showDigit c s
  | true =>
    rw [measured_of_voltage c hm, compute, if_pos hm]
    exact voltageDigit_eq_showDigit c _

/-- What a REFRESH does with the digit `d` of the position: show it, send it, advance (R176). -/
def serveDigit (c : Config) (d : Nat) (point : Bool) (s : State) : Outcome :=
  andThen (showDigit c d s.idx point s) fun t => andThen (execEmit t.snapSeg t.snapDsel t) execIdxAdv

/-- `REFRESH` serves the mode's digit at the current position (R176). -/
theorem execRefresh_eq_serveDigit (c : Config) (s : State) :
    execRefresh s c = serveDigit c (digitShown s.modeVoltage s.idx s.counter.toNat (measured c s).mv)
      (pointForced s.modeVoltage s.idx) (measured c s) := by
  rw [execRefresh, compute_eq_showDigit]
  rfl

/-- A digit in the table is served where no EMIT is in progress. -/
theorem serveDigit_of_lt (c : Config) (d : Fin 10) (point : Bool) {s : State} (h0 : s.serPos = 0#6) :
    serveDigit c d.val point s = .next (afterServing c d.val (segPattern c d point) s) := by
  rw [serveDigit, showDigit_of_lt, andThen_of_next, execEmit_of_serPos_zero]
  · rfl
  · exact h0

/-- It is refused where one is (U4). -/
theorem serveDigit_of_overlap (c : Config) (d : Fin 10) (point : Bool) {s : State} (h0 : s.serPos ≠ 0#6) :
    serveDigit c d.val point s = .refused .emitOverlap := by
  rw [serveDigit, showDigit_of_lt, andThen_of_next, execEmit, if_neg h0, andThen_of_refused]

/-- A digit outside the table is not served (R51). -/
theorem serveDigit_of_ge (c : Config) {d : Nat} (h : 10 ≤ d) (point : Bool) (s : State) :
    serveDigit c d point s = .fault (.lutIndexFault .seg d) := by
  rw [serveDigit, showDigit_of_ge c h, andThen_of_fault]

/-- Everything a REFRESH could read for its digit but the mode and the position, changed field by field: the counter, the potentiometer, the
millivolt values and the button lines. -/
def changeSources (n : BitVec 13 → BitVec 13) (r : Ratio → Ratio) (raw mv : Nat → Nat) (b1 b2 : Bool) (s : State) : State :=
  { s with
    counter := n s.counter, pot := r s.pot, mvRaw := raw s.mvRaw, mv := mv s.mv, btnReset := b1, btnMode := b2 }

/-- Once the digit is known, none of them is looked at: the table and `ser_pos` alone decide the outcome. -/
theorem serveDigit_changeSources (c : Config) (d : Nat) (point : Bool) (n : BitVec 13 → BitVec 13) (r : Ratio → Ratio)
    (raw mv : Nat → Nat) (b1 b2 : Bool) (s : State) :
    serveDigit c d point (changeSources n r raw mv b1 b2 s) =
      andThen (serveDigit c d point s) fun t => .next (changeSources n r raw mv b1 b2 t) := by
  obtain ⟨d, rfl⟩ | hd : (∃ e : Fin 10, e.val = d) ∨ 10 ≤ d := (Nat.lt_or_ge d 10).imp_left fun h => ⟨⟨d, h⟩, rfl⟩
  · by_cases h0 : s.serPos = 0#6
    · rw [serveDigit_of_lt c d point h0]
      exact serveDigit_of_lt c d point h0
    · rw [serveDigit_of_overlap c d point h0]
      exact serveDigit_of_overlap c d point h0
  · rw [serveDigit_of_ge c hd, serveDigit_of_ge c hd]
    rfl

/-- In time mode the digit does not depend on the millivolt value (R80). -/
theorem digitShown_time (pos : BitVec 2) (n mv mv' : Nat) : digitShown false pos n mv = digitShown false pos n mv' := by
  rcases idx_cases pos with rfl | rfl | rfl | rfl <;> rfl

/-- In voltage mode it does not depend on the counter (R81). -/
theorem digitShown_voltage (pos : BitVec 2) (n n' mv : Nat) : digitShown true pos n mv = digitShown true pos n' mv := by
  rcases idx_cases pos with rfl | rfl | rfl | rfl <;> rfl

/-- In time mode the digit is the counter's, whatever the millivolt value (R164). -/
theorem execRefresh_time (c : Config) {s : State} (hm : s.modeVoltage = false) (mv : Nat) :
    execRefresh s c = serveDigit c (digitShown false s.idx s.counter.toNat mv) (pointForced false s.idx) s := by
  rw [execRefresh_eq_serveDigit, measured_of_time c hm, hm, digitShown_time _ _ _ mv]

/-- In voltage mode it is the potentiometer's, whatever the counter (R169). -/
theorem execRefresh_voltage (c : Config) {s : State} (hm : s.modeVoltage = true) (n : Nat) :
    execRefresh s c = serveDigit c (digitShown true s.idx n (clampMv c (c.scaleMv s.pot))) (pointForced true s.idx)
      { s with mvRaw := c.scaleMv s.pot, mv := clampMv c (c.scaleMv s.pot) } := by
  rw [execRefresh_eq_serveDigit, measured_of_voltage c hm, hm, digitShown_voltage _ _ n]

/-- Settles O30: the digit is the mode's, and serving it commutes with a change of what the mode does not read. -/
theorem refreshReadsOnlyItsSource : Obligations.RefreshReadsOnlyItsSource := by
  intro s r raw clamped n b1 b2
  refine ⟨fun hm => ?_, fun hm => ?_⟩
  · have hserve := serveDigit_changeSources config (digitShown false s.idx s.counter.toNat 0) (pointForced false s.idx)
      id (fun _ => r) (fun _ => raw) (fun _ => clamped) b1 b2 s
    rw [← execRefresh_time config hm 0] at hserve
    have hchanged := execRefresh_time config (s := changeSources id (fun _ => r) (fun _ => raw) (fun _ => clamped) b1 b2 s) hm 0
    exact hchanged.trans hserve
  · have hserve := serveDigit_changeSources config (digitShown true s.idx 0 (clampMv config (config.scaleMv s.pot)))
      (pointForced true s.idx) (fun _ => n) id id id b1 b2
      { s with mvRaw := config.scaleMv s.pot, mv := clampMv config (config.scaleMv s.pot) }
    rw [← execRefresh_voltage config hm 0] at hserve
    have hchanged := execRefresh_voltage config (s := changeSources (fun _ => n) id (fun _ => raw) (fun _ => clamped) b1 b2 s) hm 0
    exact hchanged.trans hserve

/-! ### The iteration that serves a pending refresh -/

/-- An iteration that started in `s`, after both button samples (R203 to R205). -/
def afterSamples (s : State) : State :=
  enterPhase .gate (setModeFromLevel s.btnMode
    { s with counter := if s.prevReset && !s.btnReset then 0#13 else s.counter, prevReset := s.btnReset })

/-- The same iteration where the gate has found a refresh pending, and consumed the flag (R161). -/
def enteringCompute (s : State) : State := enterPhase .compute (clearRefreshPending (afterSamples s))

/-- After the samples the gate decides whether the iteration holds a REFRESH (R203). -/
theorem loopIteration_eq_gate (c : Config) (s : State) :
    loopIteration s (execWith c) =
      andThen (execGate (afterSamples s)) fun t => if t.mainPhase = .compute then execRefresh t c else .next t := rfl

/-- A pending refresh is served in the iteration that finds it. -/
theorem loopIteration_of_pending (c : Config) {s : State} (hpend : s.refreshPending = true) :
    loopIteration s (execWith c) = execRefresh (enteringCompute s) c := by
  have hgate : execGate (afterSamples s) = .next (enteringCompute s) := if_pos hpend
  have hphase : (enteringCompute s).mainPhase = .compute := rfl
  rw [loopIteration_eq_gate, hgate, andThen_of_next, if_pos hphase]

/-- The counter that a REFRESH of this iteration reads: zeroed by a sampled falling edge of the reset button (R204). -/
theorem enteringCompute_counter (s : State) :
    (enteringCompute s).counter.toNat = if s.prevReset && !s.btnReset then 0 else s.counter.toNat :=
  apply_ite BitVec.toNat _ _ _

/-- Settles O43: the iteration comes to REFRESH with the samples taken and the flag consumed, and REFRESH serves the position. -/
theorem loopServesThePendingRefresh : Obligations.LoopServesThePendingRefresh := by
  intro s rest hr hs h0 hpend htr
  have hstep : step s = exec .refresh (enteringCompute { s with trace := rest }) := by
    rw [step_of_cons htr, ← execWith_config]
    exact (if_pos hs).trans (loopIteration_of_pending config hpend)
  have hcounter : (enteringCompute s).counter.toNat ≤ 5999 := by
    rw [enteringCompute_counter]
    split
    · exact Nat.zero_le _
    · exact hr.counter
  obtain ⟨d, raw, clamped, hraw, hclamped, hd, hx⟩ :=
    refreshServesOnePosition (enteringCompute { s with trace := rest }) hcounter h0
  refine ⟨_, d, hstep.trans hx, ?_, rfl, rfl, rfl, rfl, rfl, rfl, rfl, rfl, rfl⟩
  rw [hd, ← enteringCompute_counter]
  show digitShown (!s.btnMode) s.idx (enteringCompute s).counter.toNat clamped = _
  cases hmode : s.btnMode with
  | true => exact digitShown_time _ _ _ _
  | false =>
    have hmode : (enteringCompute { s with trace := rest }).modeVoltage = true := congrArg not hmode
    rw [hclamped, hraw, if_pos hmode, if_pos hmode]
    rfl

/-! ### The machine never stops -/

/-- An iteration completes from its start: three steps of MAIN, and the REFRESH where one is pending (R177, R203). -/
theorem loopIteration_completes {c : Config} (hl : c.mvMax = 9999) {s : State} (hr : InRange s) (hp : PhaseOk s)
    (hs : atIterationStart s = true) : ∃ t, loopIteration s (execWith c) = .next t := by
  obtain ⟨u, hu, hru, hpu, _⟩ := mainStep_completes hl hr hp
  obtain ⟨v, hv, hrv, hpv, _⟩ := mainStep_completes hl hru hpu
  obtain ⟨w, hw, hrw, hpw, _⟩ := mainStep_completes hl hrv hpv
  simp only [loopIteration_eq_mainSteps c hs, hu, hv, hw, andThen_of_next]
  split
  next hc =>
    obtain ⟨_, _, hx⟩ := execRefresh_of_le hl hrw.counter (hpw.serPos_zero (by simp [hc]))
    exact ⟨_, hx⟩
  next => exact ⟨_, rfl⟩

/-- So do MAIN's steps to the end of an iteration (entry 23). -/
theorem finishIteration_completes {c : Config} (hl : c.mvMax = 9999) (fuel : Nat) {s : State} (hr : InRange s) (hp : PhaseOk s) :
    ∃ t, finishIteration fuel s (execWith c) = .next t := by
  induction fuel generalizing s with
  | zero => exact ⟨s, rfl⟩
  | succ n ih =>
    obtain ⟨u, hu, hru, hpu, _⟩ := mainStep_completes hl hr hp
    rw [finishIteration, hu, andThen_of_next]
    split
    · exact ⟨u, rfl⟩
    · exact ih hru hpu

/-- So does the event `LOOP`, wherever MAIN stands (R88). -/
theorem runLoop_completes {c : Config} (hl : c.mvMax = 9999) {s : State} (hr : InRange s) (hp : PhaseOk s) :
    ∃ t, runLoop s (execWith c) = .next t := by
  unfold runLoop
  split
  next hs => exact loopIteration_completes hl hr hp hs
  next => exact finishIteration_completes hl _ hr hp

/-- Every hardware event completes where the ranges hold and MAIN stands where it may (R230, R282); `s` has the event already off its trace. -/
theorem runEvent_completes {c : Config} (hl : c.mvMax = 9999) {e : Event} (he : e.ofHardware = true) {s : State} (hr : InRange s)
    (hp : PhaseOk s) : ∃ t, runEvent e s (execWith c) = .next t := by
  cases e with
  | por | tick1s | tick2ms | btnReset | btnMode => exact ⟨_, rfl⟩
  | pot r => exact ⟨_, if_pos he⟩
  | main =>
    obtain ⟨t, ht, _⟩ := mainStep_completes hl hr hp
    exact ⟨t, ht⟩
  | loop => exact runLoop_completes hl hr hp
  | loopTimes k =>
    cases k with
    | zero => exact ⟨s, rfl⟩
    | succ k => exact runLoop_completes hl (s := { s with trace := .loopTimes k :: s.trace }) ⟨hr.counter, hr.mv, hr.serPos, hr.pot⟩ hp
  | word => cases he

/-- Settles O48: MAIN's own step completes on an empty trace, and so does the first event of any other. -/
theorem hardwareNeverStops : Obligations.HardwareNeverStops := by
  intro s h
  rw [← stepWith_config, stepWith]
  cases htr : s.trace with
  | nil =>
    obtain ⟨t, ht, _⟩ := mainStep_completes config_mvMax h.ranges h.phase
    exact ⟨t, (systemStep_of_empty htr).trans ht⟩
  | cons e rest =>
    have ⟨hcounter, hmv, hser, hpot⟩ := h.ranges
    rw [systemStep_of_cons htr]
    exact runEvent_completes config_mvMax (h.hardware e (by simp [htr])) ⟨hcounter, hmv, hser, hpot⟩ h.phase

end Sys2Proof.Machine

/-! ## The context blocks: the two ticks, the two button samples, the scaling, one LOOP as MAIN's steps -/

namespace Sys2Proof.Machine

/-! ### The two timer callbacks -/

/-- Settles O32: the sum of the increment and compare, on the range and above it (D23). -/
theorem secondTickCountsModulo6000 : Obligations.SecondTickCountsModulo6000 := by
  intro s
  have hnext := tickCounter_toNat config_wrap s.counter
  refine ⟨tickCounter config s.counter, rfl, fun hle => ?_, fun hgt => ?_⟩
  · rw [hnext]
    split <;> omega
  · rw [hnext, if_pos (by omega)]

/-- Settles O33: setting a set flag gives the state back, and GATE finds the flag that the tick has set. -/
theorem refreshTickSetsTheFlag : Obligations.RefreshTickSetsTheFlag := by
  intro s
  refine ⟨fun _ htr => step_of_cons htr, rfl, fun hset => ?_, fun t ht => ?_⟩
  · show Host.Outcome.next { s with refreshPending := true } = .next s
    rw [← hset]
  · obtain rfl : setRefreshPending s = t := Host.Outcome.next.inj ht
    obtain ⟨_, hgate, _⟩ := gateTestsAndClearsTheFlag (setRefreshPending s)
    exact ⟨_, hgate rfl, rfl, rfl⟩

/-! ### The two button samples -/

/-- `SAMPLE_RESET` by the previous sample and the level of the line (R204). -/
theorem exec_sampleReset {s : State} {prev cur : Bool} (hprev : s.prevReset = prev) (hcur : s.btnReset = cur) :
    exec .sampleReset s = .next { s with counter := if prev && !cur then 0#13 else s.counter, prevReset := cur } := by
  subst hprev hcur
  rfl

/-- Settles O34: of the four cases only the falling edge zeroes the counter. -/
theorem resetButtonActsOnTheFallingEdge : Obligations.ResetButtonActsOnTheFallingEdge := by
  intro s
  exact ⟨fun hs hp => by simp only [select, hs, if_pos hp], exec_sampleReset, exec_sampleReset, exec_sampleReset,
    exec_sampleReset⟩

/-- In phase COMPUTE the selector picks the digit operation, in voltage mode after the scaling and the clamp (R76, R169). -/
theorem select_of_digit {s : State} (hs : s.mainPhase = .compute) (hp : s.modeVoltage = true → s.phasePos = 2#2) :
    select s = some (decodeSel (selectorOf s)) := by
  cases hm : s.modeVoltage with
  | false => simp [select, hs, hm]
  | true => simp [select, hs, hp hm]

/-- Settles O35: what each step of SAMPLE and COMPUTE selects; in the digit's step, the operation at the selector `mode_voltage ++ idx`. -/
theorem modeIsTheSampledLevel : Obligations.ModeIsTheSampledLevel := by
  intro s
  refine ⟨fun hs hp => ?_, rfl, fun hs hm => ⟨fun hp => ?_, fun hp => ?_, fun hp => ?_⟩, fun hs hm => ?_, fun _ => rfl⟩
  · simp [select, hs, hp]
  · simp [select, hs, hm, hp]
  · simp [select, hs, hm, hp]
  · rw [select_of_digit hs fun _ => hp, selectorOf, hm]
    refine ⟨fun hi => ?_, fun hi => ?_, fun hi => ?_, fun hi => ?_⟩ <;> rw [hi] <;> rfl
  · rw [select_of_digit hs (by simp [hm]), selectorOf, hm]
    refine ⟨fun hi => ?_, fun hi => ?_, fun hi => ?_, fun hi => ?_⟩ <;> rw [hi] <;> rfl

/-! ### The Analog Reader -/

/-- The default scaling in millivolts: 3.3 volts at full scale are 3300 (R206, D14). -/
theorem scaleMv_config (r : Ratio) : config.scaleMv r = r.num * 3300 / r.den :=
  calc r.num * 33 * 1000 / (r.den * 10)
      = r.num * 3300 * 10 / (r.den * 10) := by congr 1; omega
    _ = r.num * 3300 / r.den := Nat.mul_div_mul_right _ _ (by decide)

/-- Settles O36: the fraction of the scaling in lowest terms; a ratio in [0, 1] gives at most full scale. -/
theorem scaleAndClampComputeMillivolts : Obligations.ScaleAndClampComputeMillivolts := by
  intro s
  refine ⟨?_, rfl, fun hr => ?_⟩
  · rw [← scaleMv_config]
    rfl
  · obtain ⟨_, hle⟩ : 0 < s.pot.den ∧ s.pot.num ≤ s.pot.den := of_decide_eq_true hr
    exact Nat.div_le_of_le_mul (Nat.mul_le_mul_right 3300 hle)

/-! ### One LOOP as MAIN's steps -/

/-- With no event ahead a step is MAIN's, in this machine's configuration (R281). -/
theorem step_eq_mainStep_config {s : State} (htr : s.trace = []) : step s = mainStep s (execWith config) := by
  rw [step_of_empty htr, execWith_config]

/-- A run after its first step. -/
theorem runSteps_succ_of_step {s t : State} (h : step s = .next t) {n : Nat} : runSteps (n + 1) s = runSteps n t := by
  rw [runSteps, h, andThen_of_next]

/-- A run whose first step is a step of MAIN. -/
theorem runSteps_succ_of_mainStep {s t : State} (htr : s.trace = []) (h : mainStep s (execWith config) = .next t) {n : Nat} :
    runSteps (n + 1) s = runSteps n t :=
  runSteps_succ_of_step ((step_eq_mainStep_config htr).trans h)

/-- From the start of an iteration the event `LOOP`, with none behind it, is one whole iteration (R88, R203). -/
theorem step_of_loop {s : State} (hs : atIterationStart s = true) (htr : s.trace = []) :
    step { s with trace := [.loop] } = loopIteration s (execWith config) := by
  have hoff : { s with trace := [] } = s := by rw [← htr]
  rw [step_of_cons (e := .loop) (rest := []) rfl, ← execWith_config]
  exact (if_pos hs).trans (congrArg (loopIteration · (execWith config)) hoff)

/-- The two button samples are two steps (R203; entry 18). -/
theorem runSteps_samples {s : State} (hs : atIterationStart s = true) (htr : s.trace = []) (n : Nat) :
    runSteps (n + 2) s = runSteps n (afterSamples s) := by
  obtain ⟨hphase, hpos⟩ : s.mainPhase = .sample ∧ s.phasePos = 0#2 := by simpa [atIterationStart] using hs
  rw [runSteps_succ_of_mainStep htr (mainStep_sampleReset config hphase hpos)]
  refine runSteps_succ_of_mainStep ?_ (mainStep_sampleMode config ?_ ?_)
  · exact htr
  · exact hphase
  · exact show 1#2 ≠ 0#2 by decide

/-- The gate is one step (R161). -/
theorem step_afterSamples {s : State} (htr : s.trace = []) : step (afterSamples s) = execGate (afterSamples s) := by
  rw [step_of_empty (s := afterSamples s) htr, mainStep_of_select (i := .gate) rfl]
  show andThen (execGate (afterSamples s)) .next = _
  rw [execGate_eq, andThen_of_next]

/-- An EMIT and the advance after it are fifty-one steps (R29, R135, R175). -/
theorem runSteps_emit_advance {s : State} (he : s.mainPhase = .emit) (h0 : s.serPos = 0#6) (htr : s.trace = []) :
    runSteps 51 s = execIdxAdv (afterEmit s.snapSeg s.snapDsel s) := by
  have hemit : exec (.emit s.snapSeg s.snapDsel) s = .next (afterEmit s.snapSeg s.snapDsel s) := execEmit_of_serPos_zero h0
  rw [runSteps_succ, fiftyMainStepsAreOneEmit s he h0 htr, hemit, andThen_of_next, andThen_of_next]
  exact (step_eq_mainStep_config (s := enterPhase .advance (afterEmit s.snapSeg s.snapDsel s)) htr).trans (mainStep_advance config rfl)

/-- A digit computation, its EMIT and the advance are fifty-two steps; a digit outside the table faults in the first (R51, R176). -/
theorem runSteps_serveDigit {s : State} {d : Nat} {point : Bool} (h0 : s.serPos = 0#6) (htr : s.trace = [])
    (hdigit : mainStep s (execWith config) = andThen (showDigit config d s.idx point s) fun t => .next (enterPhase .emit t)) :
    runSteps 52 s = serveDigit config d point s := by
  have hstep := (step_eq_mainStep_config htr).trans hdigit
  obtain ⟨d, rfl⟩ | hd : (∃ e : Fin 10, e.val = d) ∨ 10 ≤ d := (Nat.lt_or_ge d 10).imp_left fun h => ⟨⟨d, h⟩, rfl⟩
  · rw [showDigit_of_lt, andThen_of_next] at hstep
    rw [runSteps_succ_of_step hstep, serveDigit_of_lt config d point h0]
    exact runSteps_emit_advance rfl h0 htr
  · rw [showDigit_of_ge config hd, andThen_of_fault] at hstep
    rw [runSteps, hstep, andThen_of_fault, serveDigit_of_ge config hd]

/-- The step inside the phase plays no part in serving a digit: the advance sets it to 0 (R29). -/
theorem serveDigit_phasePos (c : Config) (d : Nat) (point : Bool) (p : BitVec 2) {s : State} (h0 : s.serPos = 0#6) :
    serveDigit c d point { s with phasePos := p } = serveDigit c d point s := by
  obtain ⟨d, rfl⟩ | hd : (∃ e : Fin 10, e.val = d) ∨ 10 ≤ d := (Nat.lt_or_ge d 10).imp_left fun h => ⟨⟨d, h⟩, rfl⟩
  · rw [serveDigit_of_lt c d point h0]
    exact serveDigit_of_lt c d point h0
  · rw [serveDigit_of_ge c hd, serveDigit_of_ge c hd]

/-- In time mode a REFRESH is fifty-two steps (R176). -/
theorem runSteps_refresh_time {s : State} (hs : s.mainPhase = .compute) (hm : s.modeVoltage = false) (h0 : s.serPos = 0#6)
    (htr : s.trace = []) : runSteps 52 s = execRefresh s config := by
  have hdigit := mainStep_time config hs hm
  rw [computeTime_eq_showDigit] at hdigit
  rw [runSteps_serveDigit h0 htr hdigit, execRefresh_time config hm]

/-- The state before the digit operation in voltage mode: the third step of COMPUTE, after the scaling and the clamp (R169; entry 18). -/
def beforeVoltageDigit (s : State) : State := { measured config s with phasePos := 2#2 }

/-- The scaling and the clamp are two steps (R169; entry 18). -/
theorem runSteps_measured {s : State} (hs : s.mainPhase = .compute) (hm : s.modeVoltage = true) (hp : s.phasePos = 0#2)
    (htr : s.trace = []) (n : Nat) : runSteps (n + 2) s = runSteps n (beforeVoltageDigit s) := by
  rw [runSteps_succ_of_mainStep htr (mainStep_scale config hs hm hp), beforeVoltageDigit, measured_of_voltage config hm]
  refine runSteps_succ_of_mainStep ?_ (mainStep_clamp config ?_ ?_ rfl)
  · exact htr
  · exact hs
  · exact hm

/-- In voltage mode a REFRESH is fifty-four steps (R169, R176). -/
theorem runSteps_refresh_voltage {s : State} (hs : s.mainPhase = .compute) (hm : s.modeVoltage = true) (hp : s.phasePos = 0#2)
    (h0 : s.serPos = 0#6) (htr : s.trace = []) : runSteps 54 s = execRefresh s config := by
  have hdigit := mainStep_voltage config (s := beforeVoltageDigit s) hs hm (show 2#2 ≠ 0#2 by decide) (show 2#2 ≠ 1#2 by decide)
  rw [voltageDigit_eq_showDigit] at hdigit
  rw [runSteps_measured hs hm hp htr 52, runSteps_serveDigit (s := beforeVoltageDigit s) h0 htr hdigit, execRefresh_eq_serveDigit, hm]
  exact serveDigit_phasePos config _ _ 2#2 h0

/-- Settles O42: the samples and the gate are three steps, and the gate decides whether a REFRESH of the sampled mode follows. -/
theorem loopIsMainStepByStep : Obligations.LoopIsMainStepByStep := by
  intro s hs h0 htr
  rw [step_of_loop hs htr]
  cases hpend : s.refreshPending with
  | false =>
    have hgate : execGate (afterSamples s) = .next (enterPhase .sample (afterSamples s)) :=
      if_neg (Bool.eq_false_iff.mp hpend)
    rw [if_neg Bool.false_ne_true, runSteps_samples hs htr 1, runSteps_succ_of_step ((step_afterSamples htr).trans hgate),
      loopIteration_eq_gate, hgate, andThen_of_next]
    rfl
  | true =>
    have hgate : execGate (afterSamples s) = .next (enteringCompute s) := if_pos hpend
    have hrun (n : Nat) : runSteps (n + 3) s = runSteps n (enteringCompute s) := by
      rw [runSteps_samples hs htr (n + 1), runSteps_succ_of_step ((step_afterSamples htr).trans hgate)]
    rw [if_pos rfl, loopIteration_of_pending config hpend]
    cases hmode : s.btnMode with
    | true =>
      rw [if_pos rfl, hrun 52]
      exact (runSteps_refresh_time (s := enteringCompute s) rfl (congrArg not hmode) h0 htr).symm
    | false =>
      rw [if_neg Bool.false_ne_true, hrun 54]
      exact (runSteps_refresh_voltage (s := enteringCompute s) rfl (congrArg not hmode) rfl h0 htr).symm

end Sys2Proof.Machine

/-! ## The callbacks between steps of MAIN -/

namespace Sys2Proof.Machine

/-- Settles O8: each of the three events is taken off the trace, and its operation is the whole step. -/
theorem stepRunsTimerAndPowerEvents : Obligations.StepRunsTimerAndPowerEvents := by
  intro s rest
  exact ⟨step_of_cons, step_of_cons, step_of_cons⟩

/-! ### Ticks between two gates -/

/-- Of the three writers of the flag only `GATE` and power-on clear it; a tick leaves a set flag set (R22, R35). -/
theorem exec_keeps_refreshPending {i : Instr} (hgate : i ≠ .gate) (hpor : i ≠ .por) {s t : State}
    (ht : exec i s = .next t) (hs : s.refreshPending = true) : t.refreshPending = true := by
  obtain ⟨-, hwriters, -⟩ := onlyTheOwnersWriteEachRegister s t i ht
  by_contra hclear
  obtain rfl | h | h := hwriters (hs ▸ hclear)
  · cases ht
    exact hclear rfl
  · exact hgate h
  · exact hpor h

/-- So a set flag stays set over any list of operations without `GATE` and power-on (R60 item 2). -/
theorem execAll_keeps_refreshPending {is : List Instr} (hgate : .gate ∉ is) (hpor : .por ∉ is) {s t : State}
    (ht : execAll is s = .next t) (hs : s.refreshPending = true) : t.refreshPending = true := by
  induction is generalizing s with
  | nil => cases ht; exact hs
  | cons i is ih =>
    rw [List.mem_cons, not_or] at hgate hpor
    obtain ⟨u, hu, ht⟩ := andThen_eq_next.mp ht
    exact ih hgate.2 hpor.2 ht (exec_keeps_refreshPending (Ne.symm hgate.1) (Ne.symm hpor.1) hu hs)

/-- Settles O37: the callbacks write different registers; and the second tick finds the flag that the first has set. -/
theorem timerCallbacksCommuteAndCoalesce : Obligations.TimerCallbacksCommuteAndCoalesce := by
  refine fun s => ⟨rfl, fun between hgate hpor => ?_⟩
  rw [execAll_append]
  cases h : execAll (.tick2ms :: between) s with
  | fault | refused => rfl
  | next t =>
    have hset : t.refreshPending = true := execAll_keeps_refreshPending (s := setRefreshPending s) hgate hpor h rfl
    obtain ⟨-, -, hlost, -⟩ := refreshTickSetsTheFlag t
    exact congrArg (andThen · (execAll [])) (hlost hset)

end Sys2Proof.Machine

/-! ## Reset and hazards: power-on, the reset action and a tick, digits outside the ranges, fair endless runs -/

namespace Sys2Proof.Machine

/-! ### Power-on -/

/-- Settles O39: each value as `execPor` writes it, the lines from `PIN_RESET`. -/
theorem powerOnGivesTheResetValues : Obligations.PowerOnGivesTheResetValues :=
  fun _ => ⟨_, rfl, rfl, rfl, rfl, rfl, rfl, rfl, rfl, rfl, rfl, rfl, rfl, rfl, rfl, rfl, rfl, rfl, rfl⟩

/-! ### The reset action and a tick -/

/-- Settles O38: whichever comes second acts on what the first has left, the tick on 0, the falling edge on any count. -/
theorem tickAndResetActionDoNotCommute : Obligations.TickAndResetActionDoNotCommute := by
  intro s hprev hcur
  refine ⟨⟨{ s with counter := tickCounter config 0#13, prevReset := false }, ?_, rfl⟩,
    ⟨{ s with counter := 0#13, prevReset := false }, ?_, rfl⟩⟩
  · rw [exec_sampleReset hprev hcur]
    rfl
  · exact exec_sampleReset (s := { s with counter := tickCounter config s.counter }) hprev hcur

/-! ### Digits outside the ranges -/

/-- A digit in the table is shown. -/
theorem showDigit_completes (c : Config) {d : Nat} (hd : d < 10) (pos : BitVec 2) (point : Bool) (s : State) :
    ∃ t, showDigit c d pos point s = .next t :=
  ⟨_, showDigit_of_lt c ⟨d, hd⟩ pos point s⟩

/-- Behind the leading digit every digit comes from a remainder, so it is below 10 for any count (R80, R81). -/
theorem laterDigits_lt (n mv : Nat) :
    digitT1 n < 10 ∧ digitT2 n < 10 ∧ digitT3 n < 10 ∧ digitV1 mv < 10 ∧ digitV2 mv < 10 ∧ digitV3 mv < 10 := by
  simp only [digitT1, digitT2, digitT3, digitV1, digitV2, digitV3, minutesOf, secondsOf, remainderOf]
  omega

/-- Settles O26: only the two leading digits are quotients of the whole value; the other six are bounded by a remainder. -/
theorem onlyTheLeadingDigitCanFault : Obligations.OnlyTheLeadingDigitCanFault := by
  intro s
  obtain ⟨h1, h2, h3, hv1, hv2, hv3⟩ := laterDigits_lt s.counter.toNat s.mv
  refine ⟨fun hn => ?_, fun hmv => ?_, fun i hi => ?_⟩
  · have hdigit : digitT0 s.counter.toNat = s.counter.toNat / 600 := Nat.div_div_eq_div_mul _ _ _
    rw [← hdigit]
    exact showDigit_of_ge config (by omega) 0#2 false s
  · exact showDigit_of_ge config (d := s.mv / 1000) (by omega) 0#2 true s
  · simp only [List.mem_cons, List.not_mem_nil, or_false] at hi
    rcases hi with rfl | rfl | rfl | rfl | rfl | rfl
    · exact showDigit_completes config h1 1#2 true s
    · exact showDigit_completes config h2 2#2 false s
    · exact showDigit_completes config h3 3#2 false s
    · exact showDigit_completes config hv1 1#2 false s
    · exact showDigit_completes config hv2 2#2 false s
    · exact showDigit_completes config hv3 3#2 false s

/-! ### MAIN's way to the gate and to the latch -/

/-- The most steps MAIN takes before it stands at the gate: by phase, counted back from the gate over the samples, the advance, the pin writes
left, and COMPUTE (R29, R135). -/
def stepsToGate (s : State) : Nat :=
  match s.mainPhase with
  | .gate => 0
  | .sample => if s.phasePos = 0#2 then 2 else 1
  | .advance => 3
  | .emit => 4 + (49 - s.serPos.toNat)
  | .compute => 54 + (2 - s.phasePos.toNat)

/-- In COMPUTE each step comes nearer: the scaling and the clamp by one step of the phase, the digit by entering EMIT (R169, R176). -/
theorem mainStep_compute_stepsToGate_lt {c : Config} {s t : State} (hs : s.mainPhase = .compute)
    (ht : mainStep s (execWith c) = .next t) : stepsToGate t < stepsToGate s := by
  by_cases hscale : s.modeVoltage = true ∧ s.phasePos = 0#2
  · obtain ⟨hm, hp⟩ := hscale
    cases (mainStep_scale c hs hm hp).symm.trans ht
    simp [stepsToGate, hs, hp]
  by_cases hclamp : s.modeVoltage = true ∧ s.phasePos = 1#2
  · obtain ⟨hm, hp⟩ := hclamp
    cases (mainStep_clamp c hs hm hp).symm.trans ht
    simp [stepsToGate, hs, hp]
  · have hsel : select s = some (decodeSel (selectorOf s)) := by
      simp only [select, hs, Bool.and_eq_true, decide_eq_true_eq, if_neg hscale, if_neg hclamp]
    obtain ⟨i, u, hi, _, rfl⟩ := mainStep_eq_next.mp ht
    obtain rfl : decodeSel (selectorOf s) = i := Option.some.inj (hsel.symm.trans hi)
    rw [afterMain_digitOps (decodeSel_mem_digitOps _)]
    simp only [stepsToGate, hs, enterPhase_mainPhase]
    omega

/-- Every step of MAIN that is not the gate's comes nearer to the gate. -/
theorem mainStep_stepsToGate_lt {c : Config} {s t : State} (hs : s.mainPhase ≠ .gate) (ht : mainStep s (execWith c) = .next t) :
    stepsToGate t < stepsToGate s := by
  cases hphase : s.mainPhase with
  | gate => exact absurd hphase hs
  | sample =>
    by_cases hp : s.phasePos = 0#2
    · cases (mainStep_sampleReset c hphase hp).symm.trans ht
      simp [stepsToGate, hphase, hp]
    · cases (mainStep_sampleMode c hphase hp).symm.trans ht
      simp [stepsToGate, hphase, hp]
  | compute => exact mainStep_compute_stepsToGate_lt hphase ht
  | emit =>
    by_cases hp : s.serPos.toNat < 49
    · cases (mainStep_emit c hphase hp).symm.trans ht
      simp only [stepsToGate, hphase, setSerPos_mainPhase, pinWrite_mainPhase, setSerPos_serPos]
      bv_omega
    · have hle := serPos_le_of_mainStep_emit hphase ht
      cases (mainStep_emit_last c hphase (by bv_omega)).symm.trans ht
      simp only [stepsToGate, hphase, enterPhase_mainPhase]
      omega
  | advance =>
    cases (mainStep_advance c hphase).symm.trans ht
    simp [stepsToGate, hphase]

/-- Only the gate clears the flag (R161, R35). -/
theorem mainStep_keeps_refreshPending {c : Config} {s t : State} (hs : s.mainPhase ≠ .gate) (hset : s.refreshPending = true)
    (ht : mainStep s (execWith c) = .next t) : t.refreshPending = true := by
  cases mainStep_move ht with
  | gate hp => exact absurd hp hs
  | write | latch => simpa using hset
  | sampleReset | sampleMode | scale | clamp | digit | advance => exact hset

/-- The gate consumes a set flag and leads to COMPUTE (R161). -/
theorem mainStep_gate_of_pending {c : Config} {s t : State} (hs : s.mainPhase = .gate) (hset : s.refreshPending = true)
    (ht : mainStep s (execWith c) = .next t) : t.refreshPending = false ∧ t.mainPhase = .compute := by
  cases (mainStep_gate c hs).symm.trans ht
  exact ⟨rfl, if_pos hset⟩

/-- Between the gate that consumes a flag and the latch that shows the digit (R29). -/
def Serving (s : State) : Prop := s.mainPhase = .compute ∨ s.mainPhase = .emit

/-- From a state of the display invariant, a refresh under way ends by its latch and by nothing else (R138, R141). -/
theorem mainStep_serving {c : Config} {s t : State} (h : DisplayInv s c) (hs : Serving s) (ht : mainStep s (execWith c) = .next t) :
    Serving t ∨ LatchedFrom s t := by
  cases mainStep_move ht with
  | scale | clamp => exact .inl hs
  | digit => exact .inl (.inr rfl)
  | write he => exact .inl (.inr (by simpa using he))
  | latch he =>
    have h49 := serPos_of_mainStep_leaves_emit he ht (by simp)
    have hlow := h.shift.latchLow (by simp [h49])
    exact .inr ⟨he, h49, by simp [pinWrite_latch_rise hlow], by simp [pinWrite_latch_rise hlow]⟩
  | sampleReset hp | sampleMode hp | gate hp | advance hp => simp [Serving, hp] at hs

/-! ### One step of an endless run -/

/-- An agent's step that completes is one the hardware can take: a ratio presented was in range (R283). -/
theorem ofHardware_of_oneAgentStep {e : Event} (he : e.oneAgentStep = true) {run : Meaning} {s t : State}
    (ht : runEvent e s run = .next t) : e.ofHardware = true := by
  cases e with
  | main | tick1s | tick2ms | btnReset | btnMode => rfl
  | pot r =>
    simp only [runEvent] at ht
    split at ht
    next hr => exact hr
    next => cases ht
  | por | loop | loopTimes | word => cases he

/-- The agents other than MAIN write the counter, the flag and the inputs only, and clear no flag (R35). -/
theorem runEvent_of_ne_main {e : Event} (he : e.oneAgentStep = true) (hmain : e ≠ .main) {c : Config} {s t : State}
    (ht : runEvent e s (execWith c) = .next t) : (s.refreshPending = true → t.refreshPending = true) ∧ t = { s with
      counter := t.counter, refreshPending := t.refreshPending, btnReset := t.btnReset, btnMode := t.btnMode, pot := t.pot } := by
  cases e with
  | main => exact absurd rfl hmain
  | tick2ms => cases ht; exact ⟨fun _ => rfl, rfl⟩
  | tick1s | btnReset | btnMode => cases ht; exact ⟨id, rfl⟩
  | pot r =>
    simp only [runEvent] at ht
    split at ht
    next => cases ht; exact ⟨id, rfl⟩
    next => cases ht
  | por | loop | loopTimes | word => cases he

/-- A state of an endless run with its one event already taken off. -/
def withNoneAhead (s : State) : State := { s with trace := [] }

/-- What the trace holds plays no part in the display invariant but for its own clause. -/
theorem DisplayInv.withNoneAhead {c : Config} {s : State} (h : DisplayInv s c) : DisplayInv (withNoneAhead s) c :=
  h.with_surroundings h.ranges.counter h.ranges.pot (tr := []) (fun _ he => nomatch he) s.refreshPending s.btnReset s.btnMode

section
variable {states : Nat → State} {events : Nat → Event}

/-- A step of an endless run is its event's. -/
theorem Execution.runEvent_eq (h : Execution states events) (n : Nat) :
    runEvent (events n) (withNoneAhead (states n)) (execWith config) = .next (states (n + 1)) := by
  rw [execWith_config, ← h.steps n]
  exact (step_of_cons (s := { states n with trace := [events n] }) rfl).symm

/-- Where the event is MAIN's, it is a step of MAIN. -/
theorem Execution.mainStep_eq (h : Execution states events) {n : Nat} (hn : events n = .main) :
    mainStep (withNoneAhead (states n)) (execWith config) = .next (states (n + 1)) := by
  rw [← h.runEvent_eq n, hn]
  rfl

/-- The display invariant holds all along the run. -/
theorem Execution.displayInv (h : Execution states events) (h0 : DisplayInv (states 0)) (n : Nat) : DisplayInv (states n) := by
  induction n with
  | zero => exact h0
  | succ n ih =>
    have hhard := ofHardware_of_oneAgentStep (h.oneStep n) (h.runEvent_eq n)
    exact runEvent_keeps_displayInv config_mvMax config_wrap hhard ih.withNoneAhead (h.runEvent_eq n)

/-- Each step leaves the outputs alone or latches (R145). -/
theorem Execution.outputs (h : Execution states events) (n : Nat) :
    SameOutputs (states n) (states (n + 1)) ∨ LatchedFrom (states n) (states (n + 1)) :=
  runEvent_outputs (s := withNoneAhead (states n)) (h.oneStep n) (h.runEvent_eq n)

/-- Where MAIN does not move, it stays where it stands, and a set flag stays set. -/
theorem Execution.of_ne_main (h : Execution states events) {n : Nat} (hn : events n ≠ .main) :
    ((states n).refreshPending = true → (states (n + 1)).refreshPending = true) ∧
      (states (n + 1)).mainPhase = (states n).mainPhase ∧ stepsToGate (states (n + 1)) = stepsToGate (states n) := by
  obtain ⟨hset, ht⟩ := runEvent_of_ne_main (h.oneStep n) hn (h.runEvent_eq n)
  rw [ht] at hset ⊢
  exact ⟨hset, rfl, rfl⟩

/-- Where MAIN moves and is not at the gate, it comes nearer to the gate, and a set flag stays set. -/
theorem Execution.of_main (h : Execution states events) {n : Nat} (hn : events n = .main) (hs : (states n).mainPhase ≠ .gate) :
    ((states n).refreshPending = true → (states (n + 1)).refreshPending = true) ∧
      stepsToGate (states (n + 1)) < stepsToGate (states n) :=
  ⟨fun hset => mainStep_keeps_refreshPending (s := withNoneAhead (states n)) hs hset (h.mainStep_eq hn),
    mainStep_stepsToGate_lt (s := withNoneAhead (states n)) hs (h.mainStep_eq hn)⟩

/-- Where MAIN moves at the gate, it consumes a set flag and begins a refresh (R161). -/
theorem Execution.of_gate (h : Execution states events) {n : Nat} (hn : events n = .main) (hs : (states n).mainPhase = .gate)
    (hset : (states n).refreshPending = true) :
    (states (n + 1)).refreshPending = false ∧ (states (n + 1)).mainPhase = .compute :=
  mainStep_gate_of_pending (s := withNoneAhead (states n)) hs hset (h.mainStep_eq hn)

/-- A tick sets the flag (R202). -/
theorem Execution.of_tick2ms (h : Execution states events) {n : Nat} (hn : events n = .tick2ms) :
    (states (n + 1)).refreshPending = true := by
  have ht := h.runEvent_eq n
  rw [hn] at ht
  rw [← Host.Outcome.next.inj ht]
  rfl

/-! ### What fairness brings about -/

/-- A bounded descent: where each step short of the goal keeps `P` and does not raise `rank`, and each occurrence of an event that never ceases to
occur lowers it, the goal is met. -/
theorem exists_goal_of_descent {P goal event : Nat → Prop} {rank : Nat → Nat} (hevent : ∀ n, ∃ m, n ≤ m ∧ event m)
    (hstep : ∀ n, P n → ¬ goal n → P (n + 1) ∧ rank (n + 1) ≤ rank n ∧ (event n → rank (n + 1) < rank n)) {n : Nat} (hn : P n) :
    ∃ m, n ≤ m ∧ goal m := by
  induction hrank : rank n using Nat.strong_induction_on generalizing n with
  | _ k ih =>
    by_contra hnone
    have hshort : ∀ m, n ≤ m → ¬ goal m := fun m hm hgoal => hnone ⟨m, hm, hgoal⟩
    have hkept : ∀ m, n ≤ m → P m ∧ rank m ≤ rank n := by
      intro m hm
      induction m, hm using Nat.le_induction with
      | base => exact ⟨hn, Nat.le_refl _⟩
      | succ m hm ihm =>
        obtain ⟨hP, hle, _⟩ := hstep m ihm.1 (hshort m hm)
        exact ⟨hP, hle.trans ihm.2⟩
    obtain ⟨m, hm, hev⟩ := hevent n
    obtain ⟨hP, hle⟩ := hkept m hm
    obtain ⟨hP', _, hlt⟩ := hstep m hP (hshort m hm)
    have hlt := hlt hev
    obtain ⟨g, hg, hgoal⟩ := ih (rank (m + 1)) (by omega) hP' rfl
    exact hshort g (by omega) hgoal

/-- A set flag stays set until MAIN moves at the gate, and MAIN does (R161, R281). -/
theorem Execution.reaches_gate (h : Execution states events) (hfair : Fair events) {n : Nat} (hn : (states n).refreshPending = true) :
    ∃ m, n ≤ m ∧ (states m).refreshPending = true ∧ events m = .main ∧ (states m).mainPhase = .gate := by
  refine exists_goal_of_descent (P := fun n => (states n).refreshPending = true)
    (goal := fun n => (states n).refreshPending = true ∧ events n = .main ∧ (states n).mainPhase = .gate)
    (rank := fun n => stepsToGate (states n)) hfair.main (fun n hset hgoal => ?_) hn
  by_cases hmain : events n = .main
  · obtain ⟨hkeep, hlt⟩ := h.of_main hmain fun hs => hgoal ⟨hset, hmain, hs⟩
    exact ⟨hkeep hset, hlt.le, fun _ => hlt⟩
  · obtain ⟨hkeep, _, hsteps⟩ := h.of_ne_main hmain
    exact ⟨hkeep hset, hsteps.le, (absurd · hmain)⟩

/-- A refresh under way ends by its latch (R138, R281). -/
theorem Execution.reaches_latch (h : Execution states events) (hfair : Fair events) (h0 : DisplayInv (states 0)) {n : Nat}
    (hn : Serving (states n)) : ∃ m, n ≤ m ∧ LatchedFrom (states m) (states (m + 1)) := by
  refine exists_goal_of_descent (P := fun n => Serving (states n))
    (goal := fun n => LatchedFrom (states n) (states (n + 1))) (rank := fun n => stepsToGate (states n)) hfair.main
    (fun n hs hgoal => ?_) hn
  by_cases hmain : events n = .main
  · have hinv := (h.displayInv h0 n).withNoneAhead
    have hnext := (mainStep_serving hinv hs (h.mainStep_eq hmain)).resolve_right hgoal
    obtain ⟨_, hlt⟩ := h.of_main hmain fun hg => by simp [Serving, hg] at hs
    exact ⟨hnext, hlt.le, fun _ => hlt⟩
  · obtain ⟨_, hphase, hsteps⟩ := h.of_ne_main hmain
    exact ⟨by rwa [Serving, hphase], hsteps.le, (absurd · hmain)⟩

/-- Frames are latched again and again: a tick sets the flag, the gate consumes it, and the refresh it begins ends by its latch (R178, R281). -/
theorem Execution.latches_again (h : Execution states events) (hfair : Fair events) (h0 : DisplayInv (states 0)) (n : Nat) :
    ∃ m, n ≤ m ∧ LatchedFrom (states m) (states (m + 1)) := by
  obtain ⟨k, hk, htick⟩ := hfair.tick2ms n
  obtain ⟨g, hg, hpend, hmain, hgate⟩ := h.reaches_gate hfair (h.of_tick2ms htick)
  obtain ⟨_, hcompute⟩ := h.of_gate hmain hgate hpend
  obtain ⟨m, hm, hlatch⟩ := h.reaches_latch hfair h0 (.inl hcompute)
  exact ⟨m, by omega, hlatch⟩

/-- Frames are latched one at a time, so none is left out: each number of frames from the present one on is that before some latch. -/
theorem Execution.latches_at_length (h : Execution states events) (hfair : Fair events) (h0 : DisplayInv (states 0)) {n N : Nat}
    (hn : (states n).frameTrace.length ≤ N) :
    ∃ m, n ≤ m ∧ LatchedFrom (states m) (states (m + 1)) ∧ (states m).frameTrace.length = N := by
  refine exists_goal_of_descent (P := fun n => (states n).frameTrace.length ≤ N)
    (goal := fun n => LatchedFrom (states n) (states (n + 1)) ∧ (states n).frameTrace.length = N)
    (rank := fun n => N - (states n).frameTrace.length) (h.latches_again hfair h0) (fun n hle hgoal => ?_) hn
  by_cases hlatch : LatchedFrom (states n) (states (n + 1))
  · have hne : (states n).frameTrace.length ≠ N := fun heq => hgoal ⟨hlatch, heq⟩
    obtain ⟨_, _, _, hframes⟩ := hlatch
    have hlen : (states (n + 1)).frameTrace.length = (states n).frameTrace.length + 1 := by simp [hframes]
    omega
  · obtain ⟨_, hframes⟩ := (h.outputs n).resolve_right hlatch
    rw [hframes]
    exact ⟨hle, Nat.le_refl _, (absurd · hlatch)⟩

/-- The frame a latch adds shows a digit at the position where the index stands (R174, R178). -/
theorem LatchedFrom.frameShows {c : Config} {s t : State} (h : LatchedFrom s t) (hs : DisplayInv s c) (ht : DisplayInv t c) :
    t.frameTrace = s.frameTrace ++ [t.out] ∧ s.idx = BitVec.ofNat 2 s.frameTrace.length ∧ FrameShows c s.idx t.out := by
  obtain ⟨he, _, hout, hframes⟩ := h
  rw [← hout] at hframes
  have hidx := hs.idx_eq (by simp [he])
  refine ⟨hframes, hidx, ?_⟩
  rw [hidx]
  exact ht.frames _ _ (by simp [hframes])

end

/-- Settles O53: the gate MAIN comes to consumes the flag; and since frames are latched again and again, one at a time, and the index counts them
modulo 4, every position has its turn. -/
theorem fairRunsServeEveryPosition : Obligations.FairRunsServeEveryPosition := by
  intro states events h hfair h0
  refine ⟨fun n hset => ?_, fun n pos => ?_⟩
  · obtain ⟨m, hm, hpend, hmain, hgate⟩ := h.reaches_gate hfair hset
    obtain ⟨hclear, _⟩ := h.of_gate hmain hgate hpend
    exact ⟨m, hm, hpend, hclear⟩
  · obtain ⟨m, hm, hlatch, hlen⟩ := h.latches_at_length hfair h0
      (show (states n).frameTrace.length ≤ 4 * (states n).frameTrace.length + pos.toNat by omega)
    obtain ⟨hframes, hidx, hshows⟩ := hlatch.frameShows (h.displayInv h0 m) (h.displayInv h0 (m + 1))
    have hpos : (states m).idx = pos := by
      rw [hidx, hlen]
      bv_omega
    exact ⟨m, hm, hpos, hframes, hpos ▸ hshows⟩

end Sys2Proof.Machine

/-! ## The EMIT that is refused -/

namespace Sys2Proof.Machine

/-- Settles O19: `execEmit` tests `ser_pos` before its first pin write, and off 0 an EMIT is in progress (U4). -/
theorem emitDoesNotOverlap : Obligations.EmitDoesNotOverlap :=
  fun _ _ _ h0 => if_neg h0

end Sys2Proof.Machine
